-- ==== Sys2Proof/Word.lean ====
section
/-! DEFINITION. The word types: bytes, 32-bit registers, 64-bit tweak words (00_scope.md R10, R11). -/

namespace Sys2Proof

/-- A byte is 8 bits (00_scope.md R11). -/
abbrev Byte := BitVec 8

/-- A register is 32 bits wide (10_state.md R21). -/
abbrev Word := BitVec 32

/-- A tweak word is 64 bits wide (42_cipher.md R144, R145). -/
abbrev DWord := BitVec 64

end Sys2Proof
end

