-- ==== Sys2Proof/Config.lean ====
section
/-! DEFINITION. The constants of 00_scope.md R7 to R9 and the platform's open parameters (R9; 92_eei_decisions.md, "Open parameters in one place"). -/

namespace Sys2Proof

namespace Config

/-- `CHUNK`: "fixed chunks of 4096 bytes" (R7). -/
abbrev chunkBytes : Nat := 4096

/-- `BLOCK`: the AES block, 16 bytes (R8). -/
abbrev blockBytes : Nat := 16

/-- `CRC_FIELD_BYTES`: the checksum field of a record (R7). -/
abbrev crcFieldBytes : Nat := 4

/-- `CRC_POLY_REFLECTED` (R7). -/
abbrev crcPoly : Word := 0xEDB88320#32

/-- `CRC_INIT` (R7). -/
abbrev crcInit : Word := 0xFFFFFFFF#32

/-- `MAX_LEN` = 2^31 - 1 (R9). -/
abbrev maxLen : Nat := 0x7FFFFFFF

/-- One past the highest buffer-memory address: `ADDR_W` = 32 (R9, 20_memory.md R50). -/
abbrev addrLimit : Nat := 0x100000000

/-- The register block is 64 bytes (10_state.md R36). -/
abbrev regBlockBytes : Nat := 0x40

/-- `Nr`: the rounds of AES-128 (R8, 41_aes.md R111). -/
abbrev rounds : Nat := 10

end Config

/-- An address range [base, base + size) of buffer memory that the platform admits. -/
structure Region where
  base : Nat
  size : Nat
deriving DecidableEq, Repr

/-- The parameter `MULTI_CHUNK` (00_scope.md R9, 92_eei_decisions.md D16). -/
inductive MultiChunk where
  /-- the spec's default: compute exactly and set STATUS.MC -/
  | computeAndFlag
  /-- the stricter configuration: BAD_LEN when LEN > 4096 -/
  | refuse
deriving DecidableEq, Repr

/-- What the platform fixes and the spec leaves OPEN (00_scope.md R9): a machine's State carries one,
no step changes it, and a statement for all states holds for every platform. `regions` stands for
the predicate MemAdmit of 20_memory.md R52: a range is admitted when it lies inside one of them. -/
structure Platform where
  /-- `REG_BASE` -/
  regBase : Nat
  /-- whether the registers lie in the same address space as the buffers (20_memory.md R50) -/
  regsInBufferSpace : Bool
  /-- the maximal admitted ranges -/
  regions : List Region
  multiChunk : MultiChunk
deriving DecidableEq, Repr

/-- The platform of State.reset: the window of 95_test_vectors.md section 5.2, the one MemAdmit the
spec writes out. DESIGN CHOICE, unsafe (notes/assumptions/2.md, 3.md, 4.md): the spec leaves it OPEN. -/
def Config.platformAtReset : Platform where
  regBase := 0
  regsInBufferSpace := false
  regions := [{ base := 0x1000, size := 0x1F000 }]
  multiChunk := .computeAndFlag

end Sys2Proof
end

