-- ==== Sys2Proof/Syntax.lean ====
section
/-! DEFINITION. The four commands, one constructor per row of spec/opcode_table.json (30_encoding.md R71). -/

namespace Sys2Proof

/-- A command. It has no encoded operand: its operands are the values of the operand registers at
the CMD write (30_encoding.md R70, R72). -/
inductive Instr where
  /-- `CRC32` (40_crc.md R96) -/
  | crc32
  /-- `CRCSTAMP` (40_crc.md R97) -/
  | crcstamp
  /-- `ENC` (42_cipher.md R149) -/
  | enc
  /-- `DEC` (42_cipher.md R150) -/
  | dec
deriving DecidableEq, Repr

end Sys2Proof
end

