-- ==== Sys2Proof/WellFormed.lean ====
section
/-! DEFINITION. Which command words and which commands are well formed (30_encoding.md R70, R71, R73). -/

namespace Sys2Proof

/-- A command has no operand field, so every command is well formed (30_encoding.md R70, R72). -/
def Instr.wf : Instr → Bool
  | .crc32 => true
  | .crcstamp => true
  | .enc => true
  | .dec => true

/-- The field ZERO, bits 31:8 of a command word, is all zero (30_encoding.md R70). -/
def zeroFieldOk (v : Word) : Bool := decide (v.extractLsb' 8 24 = 0#24)

/-- The field OP, bits 7:0 of a command word, is one of the four opcodes (30_encoding.md R71). -/
def opcodeOk (v : Word) : Bool :=
  decide (v.extractLsb' 0 8 ∈ [0x01#8, 0x02#8, 0x10#8, 0x11#8])

/-- A command word the block accepts; every other word is illegal (30_encoding.md R73). -/
def commandWordOk (v : Word) : Bool := zeroFieldOk v && opcodeOk v

end Sys2Proof
end

