-- ==== Sys2Proof/Decode.lean ====
section
/-! DEFINITION. The decoder of a CMD value, total on every 32-bit word, and the encoder (30_encoding.md R70, R71, R73). -/

namespace Sys2Proof

/-- Why a CMD value is illegal (30_encoding.md R73); both end in ILLEGAL_CMD. -/
inductive Illegal where
  /-- bits 31:8 are not all zero -/
  | zeroField
  /-- bits 7:0 are none of the four opcodes -/
  | opcode
deriving DecidableEq, Repr

/-- The field OP of a command word, bits 7:0 (R70). -/
def opField (v : Word) : Byte := v.extractLsb' 0 8

/-- The field ZERO of a command word, bits 31:8 (R70). -/
def zeroField (v : Word) : BitVec 24 := v.extractLsb' 8 24

/-- The command an opcode names (R71). -/
def decodeOp (op : Byte) : Except Illegal Instr :=
  if op = 0x01#8 then .ok .crc32
  else if op = 0x02#8 then .ok .crcstamp
  else if op = 0x10#8 then .ok .enc
  else if op = 0x11#8 then .ok .dec
  else .error .opcode

/-- The command a CMD value encodes; the whole 32-bit word is matched (R71). -/
def decode (v : Word) : Except Illegal Instr :=
  if zeroField v ≠ 0#24 then .error .zeroField else decodeOp (opField v)

/-- The opcode of a command (R71). -/
def opcodeOf : Instr → Byte
  | .crc32 => 0x01#8
  | .crcstamp => 0x02#8
  | .enc => 0x10#8
  | .dec => 0x11#8

/-- The CMD value that starts a command: OP in bits 7:0, ZERO (all zero) in bits 31:8 (R70, R71). -/
def encode (i : Instr) : Word := (opcodeOf i).setWidth 32

/-- The command the decoder reads from a table word of `nbits` bits (one 32-bit word; bits above
`nbits` are 0); none where the decoder refuses it. -/
def decodeTableWord (nbits w : Nat) : Option Instr :=
  match decode (BitVec.ofNat 32 (w % 2 ^ nbits)) with
  | .ok i => some i
  | .error _ => none

end Sys2Proof
end

