-- ==== Sys2Proof/Machine/Flags.lean ====
section
/-! DEFINITION. The STATUS register: its fields and the values a command writes (10_state.md R29, R30; 60_exceptions.md R171, R176, R178). -/

namespace Sys2Proof.Machine

/-- The three errors (60_exceptions.md R171). -/
inductive ErrorCode where
  | illegalCmd | badLen | bus
deriving DecidableEq, Repr

/-- The number `ECODE` of an error (R171). -/
def errorNumber : ErrorCode → Word
  | .illegalCmd => 1#32
  | .badLen => 2#32
  | .bus => 3#32

/-- STATUS after `raise Error(code)`: `0x00000002 or (code << 8)` (R176). -/
def statusError (e : ErrorCode) : Word := 0x00000002#32 ||| (errorNumber e <<< 8)

/-- STATUS of a completed command: OK (R29). -/
def statusOk : Word := 0x00000001#32

/-- STATUS of a completed multi-chunk ENC or DEC: OK and MC (R29, R178). -/
def statusOkMulti : Word := 0x00000005#32

/-- STATUS of a completed ENC or DEC over `n` bytes (42_cipher.md R149). -/
def cipherStatus (n : Nat) : Word := if Config.chunkBytes < n then statusOkMulti else statusOk

/-- The flag OK, bit 0 (R29). -/
def statusOkBit (v : Word) : Bool := v.getLsbD 0

/-- The flag ERR, bit 1 (R29). -/
def statusErrBit (v : Word) : Bool := v.getLsbD 1

/-- The flag MC, bit 2 (R29). -/
def statusMcBit (v : Word) : Bool := v.getLsbD 2

/-- The field ECODE, bits 11:8 (R29). -/
def statusEcode (v : Word) : BitVec 4 := v.extractLsb' 8 4

/-- The reserved bits 7:3 and 31:12 of a STATUS value, which read as 0 (R29). -/
def statusReserved (v : Word) : Word := v &&& 0xFFFFF0F8#32

end Sys2Proof.Machine
end

