-- ==== Sys2Proof/Machine/Bus.lean ====
section
/-! DEFINITION. The host's side of the interface as plain data: the registers by name, the widths of an access, the actions a host performs and what it reads (10_state.md R36, 30_encoding.md R75, R80, R82). -/

namespace Sys2Proof.Machine

/-- The fourteen registers of the block (10_state.md R36). -/
inductive Reg where
  | cmd | status | src | dst | len | result
  | key0 | key1 | key2 | key3
  | iv0 | iv1 | iv2 | iv3
deriving DecidableEq, Repr

/-- The width of a host access to the register block; only `word` is inside the spec (10_state.md R36). -/
inductive Width where
  | byte | half | word
deriving DecidableEq, Repr

/-- One action on the block, as the bus carries it (30_encoding.md R80, R82). Register addresses are
the platform's: REG_BASE plus the offset. -/
inductive Action where
  /-- `W off value`: a write of the register block at bus address `addr` -/
  | regWrite (addr : Nat) (width : Width) (value : Word)
  /-- `R off`: a read of the register block at bus address `addr` -/
  | regRead (addr : Nat) (width : Width)
  /-- `st addr, b0 b1 ...`: a store to buffer memory -/
  | store (addr : Word) (bytes : List Byte)
  /-- `ld addr, n`: a load from buffer memory -/
  | load (addr : Word) (n : Nat)
  /-- the platform's reset event (70_reset_and_hazards.md R195); never part of a command -/
  | reset
deriving DecidableEq, Repr

/-- What the host sees of a read: the value after `=>` in a listing (30_encoding.md R80). -/
inductive Reading where
  | reg (value : Word)
  | bytes (bs : List Byte)
deriving DecidableEq, Repr

end Sys2Proof.Machine
end

