-- ==== Sys2Proof/Machine/State.lean ====
section
/-! DEFINITION. The state of the machine, the reasons a step can stop, and the state after reset (10_state.md R20, R37). -/

namespace Sys2Proof.Machine

/-- Buffer memory (10_state.md R38): (address, byte) pairs, addresses strictly rising, no entry
equal to what an unlisted address reads as. -/
abbrev Memory := List Host.Cell

/-- Why the machine stops. The block's own three errors are no faults: a command that raises one
ends in a next state with STATUS written (60_exceptions.md R176). -/
inductive Fault where
  /-- A host store or load touches a buffer byte that MemAdmit does not admit. Raised by `State.hostStore`
  and `State.hostLoad`, never by a command. Safe: 10_state.md R38 gives the host the admitted bytes
  only, and the model goes no further (notes/assumptions/7.md). -/
  | hostMemory
deriving DecidableEq, Repr

/-- Why the model gives no step. -/
inductive Refusal where
  /-- An instruction without a meaning; no arm of `exec` answers it. Safe. -/
  | notModelled (mnemonic : String)
  /-- A register access that is not 32 bits wide. Raised by `State.accessReg`. Safe: 10_state.md R36
  puts it outside the spec, "a model refuses it (no step)". -/
  | registerWidth
  /-- A register access outside the 64 bytes at REG_BASE. Raised by `State.accessReg`. Safe (R36). -/
  | registerOutside
  /-- A misaligned register access. Raised by `State.accessReg`. Safe (R36). -/
  | registerMisaligned
  /-- A register access at an offset the table marks reserved. Raised by `State.accessReg`. Safe (R36). -/
  | registerReserved
deriving DecidableEq, Repr

/-- The machine. The registers and the buffer memory are the spec's complete state (10_state.md R20);
`platform` holds the spec's OPEN parameters; `pending` and `seen` are the model's own, the host's
side of the interface. -/
structure State where
  /-- SRC (R22) -/
  src : Word
  /-- DST (R23) -/
  dst : Word
  /-- LEN (R24) -/
  len : Word
  /-- RESULT (R27) -/
  result : Word
  /-- STATUS (R29) -/
  status : Word
  /-- KEY0 (R25) -/
  key0 : Word
  /-- KEY1 (R25) -/
  key1 : Word
  /-- KEY2 (R25) -/
  key2 : Word
  /-- KEY3 (R25) -/
  key3 : Word
  /-- IV0 (R26) -/
  iv0 : Word
  /-- IV1 (R26) -/
  iv1 : Word
  /-- IV2 (R26) -/
  iv2 : Word
  /-- IV3 (R26) -/
  iv3 : Word
  /-- the buffer memory (R38) -/
  mem : Memory
  /-- REG_BASE, MemAdmit, MULTI_CHUNK (00_scope.md R9) -/
  platform : Platform
  /-- the actions still to come, oldest first (notes/assumptions/5.md) -/
  pending : List Action
  /-- what the host has read, newest first (notes/assumptions/5.md) -/
  seen : List Reading
deriving DecidableEq, Repr

/-- The machine right after reset: every register 0x00000000 (10_state.md R37). Memory lists
nothing, nothing is pending, and the platform is the one of 95_test_vectors.md section 5.2: DESIGN
CHOICE (notes/assumptions/1.md, 2.md, 3.md, 5.md). -/
def State.reset : State where
  src := 0#32
  dst := 0#32
  len := 0#32
  result := 0#32
  status := 0#32
  key0 := 0#32
  key1 := 0#32
  key2 := 0#32
  key3 := 0#32
  iv0 := 0#32
  iv1 := 0#32
  iv2 := 0#32
  iv3 := 0#32
  mem := []
  platform := Config.platformAtReset
  pending := []
  seen := []

end Sys2Proof.Machine
end

