-- ==== Sys2Proof/Machine/Ops.lean ====
section
/-! DEFINITION. The named operations over memory and registers: byte order, the memory primitives, MemAdmit, the register file, and raising an error (00_scope.md R12, R14; 20_memory.md R50 to R54; 60_exceptions.md R176). -/

namespace Sys2Proof.Machine

/-! ### Byte order (00_scope.md R12) -/

/-- `le32(v)`: byte k is `v[8k+7:8k]`. -/
def le32 (v : Word) : List Byte :=
  [v.extractLsb' 0 8, v.extractLsb' 8 8, v.extractLsb' 16 8, v.extractLsb' 24 8]

/-- `unle32(B)`, on 4 bytes. -/
def unle32 : List Byte → Word
  | [b0, b1, b2, b3] =>
    b0.setWidth 32 ||| b1.setWidth 32 <<< 8 ||| b2.setWidth 32 <<< 16 ||| b3.setWidth 32 <<< 24
  | _ => 0#32

/-- `le64(v)`: byte j is `v[8j+7:8j]`. -/
def le64 (v : DWord) : List Byte :=
  [v.extractLsb' 0 8, v.extractLsb' 8 8, v.extractLsb' 16 8, v.extractLsb' 24 8,
   v.extractLsb' 32 8, v.extractLsb' 40 8, v.extractLsb' 48 8, v.extractLsb' 56 8]

/-- `unle64(B)`, on 8 bytes. -/
def unle64 : List Byte → DWord
  | [b0, b1, b2, b3, b4, b5, b6, b7] =>
    b0.setWidth 64 ||| b1.setWidth 64 <<< 8 ||| b2.setWidth 64 <<< 16 ||| b3.setWidth 64 <<< 24 |||
      b4.setWidth 64 <<< 32 ||| b5.setWidth 64 <<< 40 ||| b6.setWidth 64 <<< 48 |||
      b7.setWidth 64 <<< 56
  | _ => 0#64

/-- `A xor B` on byte sequences of equal length (00_scope.md R11). -/
def xorBytes (a b : List Byte) : List Byte := List.zipWith (· ^^^ ·) a b

/-! ### Buffer memory (20_memory.md R51, R53, R54) -/

/-- What an unlisted address reads as. DESIGN CHOICE, unsafe (notes/assumptions/1.md). -/
def unlistedByte : Byte := 0x00#8

/-- `Mem[a]`. -/
def Memory.get : Memory → Nat → Byte
  | [], _ => unlistedByte
  | (k, b) :: m, a => if k = a then b else Memory.get m a

/-- `Mem[a] <- b`, keeping the canonical form. -/
def Memory.set : Memory → Nat → Byte → Memory
  | [], a, b => if b = unlistedByte then [] else [(a, b)]
  | (k, c) :: m, a, b =>
    if a < k then (if b = unlistedByte then (k, c) :: m else (a, b) :: (k, c) :: m)
    else if a = k then (if b = unlistedByte then m else (a, b) :: m)
    else (k, c) :: Memory.set m a b

/-- `MemRead(addr, n)` (R53). -/
def Memory.read (m : Memory) : Nat → Nat → List Byte
  | _, 0 => []
  | a, n + 1 => Memory.get m a :: Memory.read m (a + 1) n

/-- `MemWrite(addr, len(B), B)` (R54). -/
def Memory.write : Memory → Nat → List Byte → Memory
  | m, _, [] => m
  | m, a, b :: bs => Memory.write (Memory.set m a b) (a + 1) bs

/-- The canonical form from address `lo` upward. -/
def Memory.wfFrom : Nat → Memory → Bool
  | _, [] => true
  | lo, (a, b) :: m =>
    decide (lo ≤ a) && decide (a < Config.addrLimit) && decide (b ≠ unlistedByte) &&
      Memory.wfFrom (a + 1) m

/-- The canonical form: addresses strictly rising and below 2^32, no entry equal to an unlisted byte. -/
def Memory.wf (m : Memory) : Bool := Memory.wfFrom 0 m

/-! ### MemAdmit (20_memory.md R50, R52) -/

/-- Whether [a, a+n) meets the register block while both share one address space (R50). -/
def meetsRegs (p : Platform) (a n : Nat) : Bool :=
  p.regsInBufferSpace && decide (a < p.regBase + Config.regBlockBytes) && decide (p.regBase < a + n)

/-- `MemAdmit(a, n)` (R52): the empty range always; else a range that does not pass 2^32, does not
meet the registers and lies inside one admitted region. -/
def memAdmit (p : Platform) (a n : Nat) : Bool :=
  n == 0 ||
    (decide (a + n ≤ Config.addrLimit) && !meetsRegs p a n &&
      p.regions.any fun r => decide (r.base ≤ a) && decide (a + n ≤ r.base + r.size))

/-! ### Named updates of the state -/

/-- `x[STATUS] <- v`. -/
def State.withStatus (s : State) (v : Word) : State := { s with status := v }

/-- `x[RESULT] <- v`. -/
def State.withResult (s : State) (v : Word) : State := { s with result := v }

/-- The buffer memory replaced. -/
def State.withMem (s : State) (m : Memory) : State := { s with mem := m }

/-- The queue of actions replaced. -/
def State.withPending (s : State) (q : List Action) : State := { s with pending := q }

/-- A reading handed to the host. -/
def State.record (s : State) (r : Reading) : State := { s with seen := r :: s.seen }

/-! ### The register file (10_state.md R21 to R29, R36) -/

/-- What a host read of a register returns; CMD reads 0 (R28). -/
def State.readReg (s : State) : Reg → Word
  | .cmd => 0#32
  | .status => s.status
  | .src => s.src
  | .dst => s.dst
  | .len => s.len
  | .result => s.result
  | .key0 => s.key0
  | .key1 => s.key1
  | .key2 => s.key2
  | .key3 => s.key3
  | .iv0 => s.iv0
  | .iv1 => s.iv1
  | .iv2 => s.iv2
  | .iv3 => s.iv3

/-- A host write of a register: plain storage for an operand register (R21), ignored for STATUS and
RESULT (R29, R27). CMD stores nothing (R28); the command it starts is `State.writeCommand`. -/
def State.writeReg (s : State) (r : Reg) (v : Word) : State :=
  match r with
  | .cmd => s
  | .status => s
  | .result => s
  | .src => { s with src := v }
  | .dst => { s with dst := v }
  | .len => { s with len := v }
  | .key0 => { s with key0 := v }
  | .key1 => { s with key1 := v }
  | .key2 => { s with key2 := v }
  | .key3 => { s with key3 := v }
  | .iv0 => { s with iv0 := v }
  | .iv1 => { s with iv1 := v }
  | .iv2 => { s with iv2 := v }
  | .iv3 => { s with iv3 := v }

/-! ### Taking an error, and reset -/

/-- `raise Error(code)`: STATUS is written and nothing else changes (60_exceptions.md R176). There is
no handler and so no return from one: the block is idle again (R177). -/
def State.raise (s : State) (e : ErrorCode) : State := s.withStatus (statusError e)

/-- The reset event (70_reset_and_hazards.md R195, R196): every register is 0x00000000 (10_state.md
R37); buffer memory is not touched. The platform, and the host's own queue and readings, stay. -/
def State.resetEvent (s : State) : State :=
  { State.reset with mem := s.mem, platform := s.platform, pending := s.pending, seen := s.seen }

end Sys2Proof.Machine
end

