-- ==== Sys2Proof/Machine/Aes.lean ====
section
/-! DEFINITION. The AES-128 block primitives (41_aes.md R110 to R122). Every rule here but R110 is the spec's own from general knowledge of AES (93_implementation_defined.md section 2); the model follows the rules. -/

namespace Sys2Proof.Machine

/-! ### Arithmetic in GF(2^8) (41_aes.md R112) -/

/-- `Xtime(a)`: multiplication by x modulo 0x11B. -/
def xtime (a : Byte) : Byte := if a.getLsbD 7 then (a <<< 1) ^^^ 0x1B#8 else a <<< 1

/-- `Xtime^j(a)`. -/
def xtimes : Nat → Byte → Byte
  | 0, a => a
  | j + 1, a => xtime (xtimes j a)

/-- The XOR of `Xtime^j(a)` over the bits j < n with `b[j] = 1`. -/
def gmulBits (a b : Byte) : Nat → Byte
  | 0 => 0#8
  | n + 1 => if b.getLsbD n then gmulBits a b n ^^^ xtimes n a else gmulBits a b n

/-- `GMul(a, b)`. -/
def gmul (a b : Byte) : Byte := gmulBits a b 8

/-- `GInv(a)`: the byte whose product with `a` is 1; 0 for `a = 0`. -/
def ginv (a : Byte) : Byte :=
  (((List.range 256).map (BitVec.ofNat 8)).find? fun b => decide (gmul a b = 1#8)).getD 0#8

/-! ### The S-boxes (R114, R115) -/

/-- The formula of `SBox[a]` (R114); the machine uses the table. -/
def sboxFormula (a : Byte) : Byte :=
  ginv a ^^^ (ginv a).rotateLeft 1 ^^^ (ginv a).rotateLeft 2 ^^^ (ginv a).rotateLeft 3 ^^^
    (ginv a).rotateLeft 4 ^^^ 0x63#8

/-- Rows of `sboxTable` from entry 0x0. -/
def sboxTable0 : List Byte :=
  [0x63#8, 0x7C#8, 0x77#8, 0x7B#8, 0xF2#8, 0x6B#8, 0x6F#8, 0xC5#8,
   0x30#8, 0x01#8, 0x67#8, 0x2B#8, 0xFE#8, 0xD7#8, 0xAB#8, 0x76#8,
   0xCA#8, 0x82#8, 0xC9#8, 0x7D#8, 0xFA#8, 0x59#8, 0x47#8, 0xF0#8,
   0xAD#8, 0xD4#8, 0xA2#8, 0xAF#8, 0x9C#8, 0xA4#8, 0x72#8, 0xC0#8,
   0xB7#8, 0xFD#8, 0x93#8, 0x26#8, 0x36#8, 0x3F#8, 0xF7#8, 0xCC#8,
   0x34#8, 0xA5#8, 0xE5#8, 0xF1#8, 0x71#8, 0xD8#8, 0x31#8, 0x15#8,
   0x04#8, 0xC7#8, 0x23#8, 0xC3#8, 0x18#8, 0x96#8, 0x05#8, 0x9A#8,
   0x07#8, 0x12#8, 0x80#8, 0xE2#8, 0xEB#8, 0x27#8, 0xB2#8, 0x75#8]

/-- Rows of `sboxTable` from entry 0x40. -/
def sboxTable1 : List Byte :=
  [0x09#8, 0x83#8, 0x2C#8, 0x1A#8, 0x1B#8, 0x6E#8, 0x5A#8, 0xA0#8,
   0x52#8, 0x3B#8, 0xD6#8, 0xB3#8, 0x29#8, 0xE3#8, 0x2F#8, 0x84#8,
   0x53#8, 0xD1#8, 0x00#8, 0xED#8, 0x20#8, 0xFC#8, 0xB1#8, 0x5B#8,
   0x6A#8, 0xCB#8, 0xBE#8, 0x39#8, 0x4A#8, 0x4C#8, 0x58#8, 0xCF#8,
   0xD0#8, 0xEF#8, 0xAA#8, 0xFB#8, 0x43#8, 0x4D#8, 0x33#8, 0x85#8,
   0x45#8, 0xF9#8, 0x02#8, 0x7F#8, 0x50#8, 0x3C#8, 0x9F#8, 0xA8#8,
   0x51#8, 0xA3#8, 0x40#8, 0x8F#8, 0x92#8, 0x9D#8, 0x38#8, 0xF5#8,
   0xBC#8, 0xB6#8, 0xDA#8, 0x21#8, 0x10#8, 0xFF#8, 0xF3#8, 0xD2#8]

/-- Rows of `sboxTable` from entry 0x80. -/
def sboxTable2 : List Byte :=
  [0xCD#8, 0x0C#8, 0x13#8, 0xEC#8, 0x5F#8, 0x97#8, 0x44#8, 0x17#8,
   0xC4#8, 0xA7#8, 0x7E#8, 0x3D#8, 0x64#8, 0x5D#8, 0x19#8, 0x73#8,
   0x60#8, 0x81#8, 0x4F#8, 0xDC#8, 0x22#8, 0x2A#8, 0x90#8, 0x88#8,
   0x46#8, 0xEE#8, 0xB8#8, 0x14#8, 0xDE#8, 0x5E#8, 0x0B#8, 0xDB#8,
   0xE0#8, 0x32#8, 0x3A#8, 0x0A#8, 0x49#8, 0x06#8, 0x24#8, 0x5C#8,
   0xC2#8, 0xD3#8, 0xAC#8, 0x62#8, 0x91#8, 0x95#8, 0xE4#8, 0x79#8,
   0xE7#8, 0xC8#8, 0x37#8, 0x6D#8, 0x8D#8, 0xD5#8, 0x4E#8, 0xA9#8,
   0x6C#8, 0x56#8, 0xF4#8, 0xEA#8, 0x65#8, 0x7A#8, 0xAE#8, 0x08#8]

/-- Rows of `sboxTable` from entry 0xc0. -/
def sboxTable3 : List Byte :=
  [0xBA#8, 0x78#8, 0x25#8, 0x2E#8, 0x1C#8, 0xA6#8, 0xB4#8, 0xC6#8,
   0xE8#8, 0xDD#8, 0x74#8, 0x1F#8, 0x4B#8, 0xBD#8, 0x8B#8, 0x8A#8,
   0x70#8, 0x3E#8, 0xB5#8, 0x66#8, 0x48#8, 0x03#8, 0xF6#8, 0x0E#8,
   0x61#8, 0x35#8, 0x57#8, 0xB9#8, 0x86#8, 0xC1#8, 0x1D#8, 0x9E#8,
   0xE1#8, 0xF8#8, 0x98#8, 0x11#8, 0x69#8, 0xD9#8, 0x8E#8, 0x94#8,
   0x9B#8, 0x1E#8, 0x87#8, 0xE9#8, 0xCE#8, 0x55#8, 0x28#8, 0xDF#8,
   0x8C#8, 0xA1#8, 0x89#8, 0x0D#8, 0xBF#8, 0xE6#8, 0x42#8, 0x68#8,
   0x41#8, 0x99#8, 0x2D#8, 0x0F#8, 0xB0#8, 0x54#8, 0xBB#8, 0x16#8]

/-- The 256 values of `SBox` as 41_aes.md R114 lists them. -/
def sboxTable : List Byte :=
  sboxTable0 ++ sboxTable1 ++ sboxTable2 ++ sboxTable3

/-- Rows of `invSboxTable` from entry 0x0. -/
def invSboxTable0 : List Byte :=
  [0x52#8, 0x09#8, 0x6A#8, 0xD5#8, 0x30#8, 0x36#8, 0xA5#8, 0x38#8,
   0xBF#8, 0x40#8, 0xA3#8, 0x9E#8, 0x81#8, 0xF3#8, 0xD7#8, 0xFB#8,
   0x7C#8, 0xE3#8, 0x39#8, 0x82#8, 0x9B#8, 0x2F#8, 0xFF#8, 0x87#8,
   0x34#8, 0x8E#8, 0x43#8, 0x44#8, 0xC4#8, 0xDE#8, 0xE9#8, 0xCB#8,
   0x54#8, 0x7B#8, 0x94#8, 0x32#8, 0xA6#8, 0xC2#8, 0x23#8, 0x3D#8,
   0xEE#8, 0x4C#8, 0x95#8, 0x0B#8, 0x42#8, 0xFA#8, 0xC3#8, 0x4E#8,
   0x08#8, 0x2E#8, 0xA1#8, 0x66#8, 0x28#8, 0xD9#8, 0x24#8, 0xB2#8,
   0x76#8, 0x5B#8, 0xA2#8, 0x49#8, 0x6D#8, 0x8B#8, 0xD1#8, 0x25#8]

/-- Rows of `invSboxTable` from entry 0x40. -/
def invSboxTable1 : List Byte :=
  [0x72#8, 0xF8#8, 0xF6#8, 0x64#8, 0x86#8, 0x68#8, 0x98#8, 0x16#8,
   0xD4#8, 0xA4#8, 0x5C#8, 0xCC#8, 0x5D#8, 0x65#8, 0xB6#8, 0x92#8,
   0x6C#8, 0x70#8, 0x48#8, 0x50#8, 0xFD#8, 0xED#8, 0xB9#8, 0xDA#8,
   0x5E#8, 0x15#8, 0x46#8, 0x57#8, 0xA7#8, 0x8D#8, 0x9D#8, 0x84#8,
   0x90#8, 0xD8#8, 0xAB#8, 0x00#8, 0x8C#8, 0xBC#8, 0xD3#8, 0x0A#8,
   0xF7#8, 0xE4#8, 0x58#8, 0x05#8, 0xB8#8, 0xB3#8, 0x45#8, 0x06#8,
   0xD0#8, 0x2C#8, 0x1E#8, 0x8F#8, 0xCA#8, 0x3F#8, 0x0F#8, 0x02#8,
   0xC1#8, 0xAF#8, 0xBD#8, 0x03#8, 0x01#8, 0x13#8, 0x8A#8, 0x6B#8]

/-- Rows of `invSboxTable` from entry 0x80. -/
def invSboxTable2 : List Byte :=
  [0x3A#8, 0x91#8, 0x11#8, 0x41#8, 0x4F#8, 0x67#8, 0xDC#8, 0xEA#8,
   0x97#8, 0xF2#8, 0xCF#8, 0xCE#8, 0xF0#8, 0xB4#8, 0xE6#8, 0x73#8,
   0x96#8, 0xAC#8, 0x74#8, 0x22#8, 0xE7#8, 0xAD#8, 0x35#8, 0x85#8,
   0xE2#8, 0xF9#8, 0x37#8, 0xE8#8, 0x1C#8, 0x75#8, 0xDF#8, 0x6E#8,
   0x47#8, 0xF1#8, 0x1A#8, 0x71#8, 0x1D#8, 0x29#8, 0xC5#8, 0x89#8,
   0x6F#8, 0xB7#8, 0x62#8, 0x0E#8, 0xAA#8, 0x18#8, 0xBE#8, 0x1B#8,
   0xFC#8, 0x56#8, 0x3E#8, 0x4B#8, 0xC6#8, 0xD2#8, 0x79#8, 0x20#8,
   0x9A#8, 0xDB#8, 0xC0#8, 0xFE#8, 0x78#8, 0xCD#8, 0x5A#8, 0xF4#8]

/-- Rows of `invSboxTable` from entry 0xc0. -/
def invSboxTable3 : List Byte :=
  [0x1F#8, 0xDD#8, 0xA8#8, 0x33#8, 0x88#8, 0x07#8, 0xC7#8, 0x31#8,
   0xB1#8, 0x12#8, 0x10#8, 0x59#8, 0x27#8, 0x80#8, 0xEC#8, 0x5F#8,
   0x60#8, 0x51#8, 0x7F#8, 0xA9#8, 0x19#8, 0xB5#8, 0x4A#8, 0x0D#8,
   0x2D#8, 0xE5#8, 0x7A#8, 0x9F#8, 0x93#8, 0xC9#8, 0x9C#8, 0xEF#8,
   0xA0#8, 0xE0#8, 0x3B#8, 0x4D#8, 0xAE#8, 0x2A#8, 0xF5#8, 0xB0#8,
   0xC8#8, 0xEB#8, 0xBB#8, 0x3C#8, 0x83#8, 0x53#8, 0x99#8, 0x61#8,
   0x17#8, 0x2B#8, 0x04#8, 0x7E#8, 0xBA#8, 0x77#8, 0xD6#8, 0x26#8,
   0xE1#8, 0x69#8, 0x14#8, 0x63#8, 0x55#8, 0x21#8, 0x0C#8, 0x7D#8]

/-- The 256 values of `InvSBox` as 41_aes.md R115 lists them. -/
def invSboxTable : List Byte :=
  invSboxTable0 ++ invSboxTable1 ++ invSboxTable2 ++ invSboxTable3

/-- `SBox[a]` (R114); the index is 8 bits, so the default is never read. -/
def sbox (a : Byte) : Byte := sboxTable.getD a.toNat 0#8

/-- `InvSBox[a]` (R115). -/
def invSbox (a : Byte) : Byte := invSboxTable.getD a.toNat 0#8

/-! ### Words and blocks (R113) -/

/-- A word `[a0, a1, a2, a3]`: a column of the AES state, top to bottom (R113). -/
structure Col where
  a0 : Byte
  a1 : Byte
  a2 : Byte
  a3 : Byte
deriving DecidableEq, Repr

/-- A 16-byte block, equally the AES state: columns 0 to 3, so that `s[r][c] = X[r + 4c]` (R113). -/
structure Block where
  c0 : Col
  c1 : Col
  c2 : Col
  c3 : Col
deriving DecidableEq, Repr

/-- The four bytes of a word in order. -/
def Col.toBytes (w : Col) : List Byte := [w.a0, w.a1, w.a2, w.a3]

/-- The bytes of a block in order: `X[r + 4c] = s[r][c]` (R113). -/
def Block.toBytes (x : Block) : List Byte :=
  x.c0.toBytes ++ x.c1.toBytes ++ x.c2.toBytes ++ x.c3.toBytes

/-- The word made of the bytes of `bs` from index `i`. -/
def Col.ofBytes (bs : List Byte) (i : Nat) : Col :=
  ⟨bs.getD i 0#8, bs.getD (i + 1) 0#8, bs.getD (i + 2) 0#8, bs.getD (i + 3) 0#8⟩

/-- The block made of the first 16 bytes of `bs`: `s[r][c] = X[r + 4c]` (R113). -/
def Block.ofBytes (bs : List Byte) : Block :=
  ⟨Col.ofBytes bs 0, Col.ofBytes bs 4, Col.ofBytes bs 8, Col.ofBytes bs 12⟩

/-- XOR of words, element by element (R120). -/
def Col.xor (x y : Col) : Col := ⟨x.a0 ^^^ y.a0, x.a1 ^^^ y.a1, x.a2 ^^^ y.a2, x.a3 ^^^ y.a3⟩

/-- XOR of blocks, byte by byte. -/
def Block.xor (x y : Block) : Block :=
  ⟨x.c0.xor y.c0, x.c1.xor y.c1, x.c2.xor y.c2, x.c3.xor y.c3⟩

/-- A function applied to every byte of a word. -/
def Col.map (f : Byte → Byte) (w : Col) : Col := ⟨f w.a0, f w.a1, f w.a2, f w.a3⟩

/-- A function applied to every column of a block. -/
def Block.mapCols (f : Col → Col) (x : Block) : Block := ⟨f x.c0, f x.c1, f x.c2, f x.c3⟩

/-! ### Round transformations (R116 to R119) -/

/-- `SubBytes` (R116). -/
def subBytes (s : Block) : Block := s.mapCols (Col.map sbox)

/-- `InvSubBytes` (R116). -/
def invSubBytes (s : Block) : Block := s.mapCols (Col.map invSbox)

/-- `ShiftRows` (R117): `s'[r][c] = s[r][(c + r) mod 4]`. -/
def shiftRows (s : Block) : Block :=
  ⟨⟨s.c0.a0, s.c1.a1, s.c2.a2, s.c3.a3⟩,
   ⟨s.c1.a0, s.c2.a1, s.c3.a2, s.c0.a3⟩,
   ⟨s.c2.a0, s.c3.a1, s.c0.a2, s.c1.a3⟩,
   ⟨s.c3.a0, s.c0.a1, s.c1.a2, s.c2.a3⟩⟩

/-- `InvShiftRows` (R117): `s'[r][c] = s[r][(c - r) mod 4]`. -/
def invShiftRows (s : Block) : Block :=
  ⟨⟨s.c0.a0, s.c3.a1, s.c2.a2, s.c1.a3⟩,
   ⟨s.c1.a0, s.c0.a1, s.c3.a2, s.c2.a3⟩,
   ⟨s.c2.a0, s.c1.a1, s.c0.a2, s.c3.a3⟩,
   ⟨s.c3.a0, s.c2.a1, s.c1.a2, s.c0.a3⟩⟩

/-- `MixColumns` on one column (R118). -/
def mixCol (w : Col) : Col :=
  ⟨gmul 0x02#8 w.a0 ^^^ gmul 0x03#8 w.a1 ^^^ w.a2 ^^^ w.a3,
   w.a0 ^^^ gmul 0x02#8 w.a1 ^^^ gmul 0x03#8 w.a2 ^^^ w.a3,
   w.a0 ^^^ w.a1 ^^^ gmul 0x02#8 w.a2 ^^^ gmul 0x03#8 w.a3,
   gmul 0x03#8 w.a0 ^^^ w.a1 ^^^ w.a2 ^^^ gmul 0x02#8 w.a3⟩

/-- `InvMixColumns` on one column (R118). -/
def invMixCol (w : Col) : Col :=
  ⟨gmul 0x0E#8 w.a0 ^^^ gmul 0x0B#8 w.a1 ^^^ gmul 0x0D#8 w.a2 ^^^ gmul 0x09#8 w.a3,
   gmul 0x09#8 w.a0 ^^^ gmul 0x0E#8 w.a1 ^^^ gmul 0x0B#8 w.a2 ^^^ gmul 0x0D#8 w.a3,
   gmul 0x0D#8 w.a0 ^^^ gmul 0x09#8 w.a1 ^^^ gmul 0x0E#8 w.a2 ^^^ gmul 0x0B#8 w.a3,
   gmul 0x0B#8 w.a0 ^^^ gmul 0x0D#8 w.a1 ^^^ gmul 0x09#8 w.a2 ^^^ gmul 0x0E#8 w.a3⟩

/-- `MixColumns` (R118). -/
def mixColumns (s : Block) : Block := s.mapCols mixCol

/-- `InvMixColumns` (R118). -/
def invMixColumns (s : Block) : Block := s.mapCols invMixCol

/-! ### Key expansion (R120) -/

/-- `Rcon[j]` = x^(j-1), j = 1 to 10 (R120). -/
def rcon (j : Nat) : Byte := xtimes (j - 1) 0x01#8

/-- `RotWord` (R120). -/
def rotWord (w : Col) : Col := ⟨w.a1, w.a2, w.a3, w.a0⟩

/-- `SubWord` (R120). -/
def subWord (w : Col) : Col := w.map sbox

/-- Words `W[4j]` to `W[4j+3]` from `W[4j-4]` to `W[4j-1]` (R120). -/
def nextRoundKey (j : Nat) (k : Block) : Block :=
  let w0 := k.c0.xor ((subWord (rotWord k.c3)).xor ⟨rcon j, 0#8, 0#8, 0#8⟩)
  let w1 := k.c1.xor w0
  let w2 := k.c2.xor w1
  ⟨w0, w1, w2, k.c3.xor w2⟩

/-- `RoundKey(j) = W[4j] ++ W[4j+1] ++ W[4j+2] ++ W[4j+3]` of `KeyExpansion(K)` (R119, R120). -/
def roundKey (k : Block) : Nat → Block
  | 0 => k
  | j + 1 => nextRoundKey (j + 1) (roundKey k j)

/-- Column `c` of a block. -/
def Block.col (x : Block) : Nat → Col
  | 0 => x.c0
  | 1 => x.c1
  | 2 => x.c2
  | _ => x.c3

/-- `W[i]` of `KeyExpansion(K)` (R120). -/
def keyWord (k : Block) (i : Nat) : Col := (roundKey k (i / 4)).col (i % 4)

/-- `AddRoundKey(s, W, j)` (R119). -/
def addRoundKey (k : Block) (j : Nat) (s : Block) : Block := s.xor (roundKey k j)

/-! ### The block functions (R121, R122) -/

/-- The state of `AesEnc` after the initial AddRoundKey and rounds 1 to `j` (R121). -/
def encRounds (k : Block) (p : Block) : Nat → Block
  | 0 => addRoundKey k 0 p
  | j + 1 => addRoundKey k (j + 1) (mixColumns (shiftRows (subBytes (encRounds k p j))))

/-- `AesEnc(K, P)` (R121): the last round has no MixColumns. -/
def aesEnc (k p : Block) : Block :=
  addRoundKey k Config.rounds (shiftRows (subBytes (encRounds k p (Config.rounds - 1))))

/-- Rounds `j` down to 1 of `AesDec` and its last half round (R122). -/
def decRounds (k : Block) : Nat → Block → Block
  | 0, s => addRoundKey k 0 (invSubBytes (invShiftRows s))
  | j + 1, s => decRounds k j (invMixColumns (addRoundKey k (j + 1) (invSubBytes (invShiftRows s))))

/-- `AesDec(K, C)` (R122). -/
def aesDec (k c : Block) : Block := decRounds k (Config.rounds - 1) (addRoundKey k Config.rounds c)

end Sys2Proof.Machine
end

