-- ==== Sys2Proof/Machine/Operands.lean ====
section
/-! DEFINITION. The operand forms: the register map, the key and IV unpacked, the lengths a command accepts, and the frame every command shares (10_state.md R25, R26, R36; 60_exceptions.md R173 to R176). -/

namespace Sys2Proof.Machine

/-! ### The register map (10_state.md R36, 30_encoding.md R75) -/

/-- The byte offset of a register from REG_BASE. -/
def regOffset : Reg → Nat
  | .cmd => 0x00
  | .status => 0x04
  | .src => 0x08
  | .dst => 0x0C
  | .len => 0x10
  | .result => 0x14
  | .key0 => 0x20
  | .key1 => 0x24
  | .key2 => 0x28
  | .key3 => 0x2C
  | .iv0 => 0x30
  | .iv1 => 0x34
  | .iv2 => 0x38
  | .iv3 => 0x3C

/-- The register at a byte offset; none at the reserved offsets 0x18, 0x1C and between registers. -/
def regAtOffset : Nat → Option Reg
  | 0x00 => some .cmd
  | 0x04 => some .status
  | 0x08 => some .src
  | 0x0C => some .dst
  | 0x10 => some .len
  | 0x14 => some .result
  | 0x20 => some .key0
  | 0x24 => some .key1
  | 0x28 => some .key2
  | 0x2C => some .key3
  | 0x30 => some .iv0
  | 0x34 => some .iv1
  | 0x38 => some .iv2
  | 0x3C => some .iv3
  | _ => none

/-- The bus address of a register: REG_BASE plus its offset (30_encoding.md R75). -/
def regAddr (p : Platform) (r : Reg) : Nat := p.regBase + regOffset r

/-- The register at a bus address, if the table of R36 lists one there. -/
def regAtAddr (p : Platform) (addr : Nat) : Option Reg :=
  if addr < p.regBase then none else regAtOffset (addr - p.regBase)

/-- The register a host access reaches, or why the model refuses it: "another width, a misaligned
access, or an access to an offset the table marks reserved" (10_state.md R36). -/
def State.accessReg (s : State) (addr : Nat) (w : Width) : Except Refusal Reg :=
  if w ≠ .word then .error .registerWidth
  else if addr < s.platform.regBase then .error .registerOutside
  else if s.platform.regBase + Config.regBlockBytes ≤ addr then .error .registerOutside
  else if (addr - s.platform.regBase) % 4 ≠ 0 then .error .registerMisaligned
  else match regAtAddr s.platform addr with
    | some r => .ok r
    | none => .error .registerReserved

/-! ### The key and the IV (10_state.md R25, R26) -/

/-- The 16 key bytes: `le32(x[KEY0]) ++ le32(x[KEY1]) ++ le32(x[KEY2]) ++ le32(x[KEY3])` (R25). -/
def State.keyBytes (s : State) : List Byte := le32 s.key0 ++ le32 s.key1 ++ le32 s.key2 ++ le32 s.key3

/-- The 16 IV bytes: `le32(x[IV0]) ++ le32(x[IV1]) ++ le32(x[IV2]) ++ le32(x[IV3])` (R26). -/
def State.ivBytes (s : State) : List Byte := le32 s.iv0 ++ le32 s.iv1 ++ le32 s.iv2 ++ le32 s.iv3

/-- The key as an AES block (41_aes.md R113). -/
def State.keyBlock (s : State) : Block := Block.ofBytes s.keyBytes

/-- The IV as an AES block (R113). -/
def State.ivBlock (s : State) : Block := Block.ofBytes s.ivBytes

/-! ### The lengths a command accepts (60_exceptions.md R173) -/

/-- `LEN` is acceptable to CRC32. -/
def crc32LenOk (n : Nat) : Bool := decide (n ≤ Config.maxLen)

/-- `LEN` is acceptable to CRCSTAMP. -/
def crcstampLenOk (n : Nat) : Bool :=
  decide (n ≤ Config.maxLen) && decide (Config.crcFieldBytes ≤ n)

/-- `LEN` is acceptable to ENC and DEC; under MULTI_CHUNK = refuse only one chunk is (92_eei_decisions.md D16). -/
def cipherLenOk (p : Platform) (n : Nat) : Bool :=
  decide (n ≤ Config.maxLen) && decide (n % Config.blockBytes = 0) &&
    (decide (p.multiChunk = .computeAndFlag) || decide (n ≤ Config.chunkBytes))

/-! ### What every command shares (60_exceptions.md R174 to R176) -/

/-- `MemAdmit` on this machine's platform. -/
def State.admits (s : State) (a n : Nat) : Bool := memAdmit s.platform a n

/-- A legal command: BAD_LEN before BUS, both before any effect (R175); else its effect. -/
def State.command (s : State) (lenOk admitted : Bool) (effect : State → State) :
    Host.Outcome State Fault Refusal :=
  if lenOk = false then .next (s.raise .badLen)
  else if admitted = false then .next (s.raise .bus)
  else .next (effect s)

/-- The input bytes `MemRead(x[SRC], x[LEN])`. -/
def State.input (s : State) : List Byte := Memory.read s.mem s.src.toNat s.len.toNat

end Sys2Proof.Machine
end

