-- ==== Sys2Proof/Machine/ChecksumCommands.lean ====
section
/-! DEFINITION. The commands CRC32 and CRCSTAMP (40_crc.md R96, R97). -/

namespace Sys2Proof.Machine

/-- The effect of CRC32 once its checks pass (40_crc.md R96). -/
def State.crc32Effect (s : State) : State :=
  (s.withResult (crc32 s.input)).withStatus statusOk

/-- `CRC32` (40_crc.md R96). -/
def execCrc32 (s : State) : Host.Outcome State Fault Refusal :=
  s.command (crc32LenOk s.len.toNat) (s.admits s.src.toNat s.len.toNat) State.crc32Effect

/-- The checksummed span of CRCSTAMP: `MemRead(A + 4, L - 4)` (40_crc.md R97). -/
def State.stampSpan (s : State) : List Byte :=
  Memory.read s.mem (s.src.toNat + Config.crcFieldBytes) (s.len.toNat - Config.crcFieldBytes)

/-- The effect of CRCSTAMP once its checks pass (40_crc.md R97). -/
def State.crcstampEffect (s : State) : State :=
  ((s.withMem (Memory.write s.mem s.src.toNat (le32 (crc32 s.stampSpan)))).withResult
    (crc32 s.stampSpan)).withStatus statusOk

/-- `CRCSTAMP` (40_crc.md R97). -/
def execCrcstamp (s : State) : Host.Outcome State Fault Refusal :=
  s.command (crcstampLenOk s.len.toNat) (s.admits s.src.toNat s.len.toNat) State.crcstampEffect

end Sys2Proof.Machine
end

