-- ==== Sys2Proof/Machine/Cipher.lean ====
section
/-! DEFINITION. The block cipher transform: chunks, CBC over one chunk, the tweak, and both paths (42_cipher.md R140 to R148). -/

namespace Sys2Proof.Machine

/-! ### CBC over one chunk (R142, R143) -/

/-- The first `n` blocks of a byte sequence, `X_i = X[16i .. 16i+16)` (R142). -/
def blocksOf : Nat → List Byte → List Block
  | 0, _ => []
  | n + 1, x => Block.ofBytes x :: blocksOf n (x.drop Config.blockBytes)

/-- The bytes of a sequence of blocks. -/
def bytesOf (ys : List Block) : List Byte := ys.flatMap Block.toBytes

/-- The recurrence of `CbcEnc`: each block is XORed with the preceding output block (R142). -/
def cbcEncBlocks (k : Block) : Block → List Block → List Block
  | _, [] => []
  | prev, x :: xs => aesEnc k (x.xor prev) :: cbcEncBlocks k (aesEnc k (x.xor prev)) xs

/-- The recurrence of `CbcDec`: each output is XORed with the preceding input block (R143). -/
def cbcDecBlocks (k : Block) : Block → List Block → List Block
  | _, [] => []
  | prev, y :: ys => (aesDec k y).xor prev :: cbcDecBlocks k y ys

/-- `CbcEnc(K, IV, X)` (R142). -/
def cbcEnc (k iv : Block) (x : List Byte) : List Byte :=
  bytesOf (cbcEncBlocks k iv (blocksOf (x.length / Config.blockBytes) x))

/-- `CbcDec(K, IV, Y)` (R143). -/
def cbcDec (k iv : Block) (y : List Byte) : List Byte :=
  bytesOf (cbcDecBlocks k iv (blocksOf (y.length / Config.blockBytes) y))

/-! ### The tweak (R144, R145) -/

/-- `T(off) = le64(zext_64(off)) ++ le64(zext_64(off))` (R144). -/
def tweakMask (off : Nat) : List Byte := le64 (BitVec.ofNat 64 off) ++ le64 (BitVec.ofNat 64 off)

/-- `ApplyTweak(off, Y) = (Y[0..16) xor T(off)) ++ Y[16..)` (R145). -/
def applyTweak (off : Nat) (y : List Byte) : List Byte :=
  xorBytes (y.take Config.blockBytes) (tweakMask off) ++ y.drop Config.blockBytes

/-! ### The transform (R140, R147, R148) -/

/-- `NChunks(L) = (L + 4095) div 4096` (R140). -/
def nChunks (n : Nat) : Nat := (n + (Config.chunkBytes - 1)) / Config.chunkBytes

/-- `Chunk(m) = B[4096m .. min(4096(m+1), L))` (R140). -/
def chunk (b : List Byte) (m : Nat) : List Byte :=
  (b.drop (Config.chunkBytes * m)).take Config.chunkBytes

/-- Both paths of the transform over the cipher `f` of one chunk: chunk by chunk in ascending offset,
the tweak on the cipher's output (R147, R148; 90_conflicts.md C1). -/
def transform (f : List Byte → List Byte) (b : List Byte) : List Byte :=
  (List.range (nChunks b.length)).flatMap fun m => applyTweak (Config.chunkBytes * m) (f (chunk b m))

/-- `TransformEnc(K, IV, B)` (R147). -/
def transformEnc (k iv : Block) (b : List Byte) : List Byte := transform (cbcEnc k iv) b

/-- `TransformDec(K, IV, B)` (R148): the tweak is not removed from the input first. -/
def transformDec (k iv : Block) (b : List Byte) : List Byte := transform (cbcDec k iv) b

end Sys2Proof.Machine
end

