-- ==== Sys2Proof/Machine/CipherCommands.lean ====
section
/-! DEFINITION. The commands ENC and DEC (42_cipher.md R149, R150). -/

namespace Sys2Proof.Machine

/-- The effect both cipher commands share (42_cipher.md R149, R150): the whole input is read, then the
whole output is written (20_memory.md R61), and STATUS tells one chunk from several. -/
def State.cipherEffect (t : Block → Block → List Byte → List Byte) (s : State) : State :=
  (s.withMem (Memory.write s.mem s.dst.toNat (t s.keyBlock s.ivBlock s.input))).withStatus
    (cipherStatus s.len.toNat)

/-- The checks both cipher commands share, and the effect (42_cipher.md R149, R150). -/
def State.cipherCommand (t : Block → Block → List Byte → List Byte) (s : State) :
    Host.Outcome State Fault Refusal :=
  s.command (cipherLenOk s.platform s.len.toNat)
    (s.admits s.src.toNat s.len.toNat && s.admits s.dst.toNat s.len.toNat) (State.cipherEffect t)

/-- `ENC` (42_cipher.md R149). -/
def execEnc (s : State) : Host.Outcome State Fault Refusal := State.cipherCommand transformEnc s

/-- `DEC` (42_cipher.md R150). -/
def execDec (s : State) : Host.Outcome State Fault Refusal := State.cipherCommand transformDec s

end Sys2Proof.Machine
end

