-- ==== Sys2Proof/Machine/HostPort.lean ====
section
/-! DEFINITION. What each action on the block does: a CMD write fetches, decodes and executes a command; the other register accesses, the host's stores and loads, and reset (10_state.md R28, R36; 30_encoding.md R73, R80; 70_reset_and_hazards.md R195). -/

namespace Sys2Proof.Machine

/-- A host write of `v` to CMD: the command `v` encodes is executed to its end (10_state.md R28); any
other value raises ILLEGAL_CMD and no operand register is examined (30_encoding.md R73, 60_exceptions.md R172). -/
def State.writeCommand (s : State) (v : Word) : Host.Outcome State Fault Refusal :=
  match decode v with
  | .ok i => exec i s
  | .error _ => .next (s.raise .illegalCmd)

/-- A host write of the register block (10_state.md R36, 30_encoding.md R80 `wr`). -/
def State.hostWrite (s : State) (addr : Nat) (w : Width) (v : Word) :
    Host.Outcome State Fault Refusal :=
  match s.accessReg addr w with
  | .error e => .refused e
  | .ok .cmd => s.writeCommand v
  | .ok r => .next (s.writeReg r v)

/-- A host read of the register block; it has no side effect on the block (R36, R80 `rd`). -/
def State.hostRead (s : State) (addr : Nat) (w : Width) : Host.Outcome State Fault Refusal :=
  match s.accessReg addr w with
  | .error e => .refused e
  | .ok r => .next (s.record (.reg (s.readReg r)))

/-- Every one of the `n` bytes at `a` is buffer memory the host may use (10_state.md R38: "any admitted byte"). -/
def State.hostMay (s : State) (a n : Nat) : Bool :=
  (List.range n).all fun i => s.admits (a + i) 1

/-- A host store to buffer memory (R80 `st`). -/
def State.hostStore (s : State) (a : Word) (bs : List Byte) : Host.Outcome State Fault Refusal :=
  if s.hostMay a.toNat bs.length then .next (s.withMem (Memory.write s.mem a.toNat bs))
  else .fault .hostMemory

/-- A host load from buffer memory (R80 `ld`). -/
def State.hostLoad (s : State) (a : Word) (n : Nat) : Host.Outcome State Fault Refusal :=
  if s.hostMay a.toNat n then .next (s.record (.bytes (Memory.read s.mem a.toNat n)))
  else .fault .hostMemory

/-- One action, performed (R80, R195). -/
def State.perform (s : State) : Action → Host.Outcome State Fault Refusal
  | .regWrite addr w v => s.hostWrite addr w v
  | .regRead addr w => s.hostRead addr w
  | .store a bs => s.hostStore a bs
  | .load a n => s.hostLoad a n
  | .reset => .next s.resetEvent

/-- The next action in program order, taken from the queue and performed (20_memory.md R63); with
none the block is idle and nothing changes (60_exceptions.md R187). -/
def State.nextAction (s : State) : Host.Outcome State Fault Refusal :=
  match s.pending with
  | [] => .next s
  | a :: rest => (s.withPending rest).perform a

/-- The CMD write that makes the block fetch and execute the word `w` next. -/
def commandWrite (p : Platform) (w : Word) : Action := .regWrite (regAddr p .cmd) .word w

/-- A word of `nbits` bits put where the block takes its next command from: the CMD write comes first
in the host's queue. -/
def State.placeCommand (s : State) (nbits w : Nat) : State :=
  s.withPending (commandWrite s.platform (BitVec.ofNat 32 (w % 2 ^ nbits)) :: s.pending)

end Sys2Proof.Machine
end

