-- ==== Sys2Proof/Machine/Step.lean ====
section
/-! DEFINITION. One step: the next action of the host or the platform, performed to its end (20_memory.md R60, R63). -/

namespace Sys2Proof.Machine

/-- One step. A whole command is one step (20_memory.md R60). -/
def step (s : State) : Host.Outcome State Fault Refusal := s.nextAction

/-- `s` with the command word `w` where the next step takes its command from: a CMD write at the head
of the host's queue. Nothing else changes (notes/assumptions/5.md). -/
def State.withFetchWord (s : State) (nbits w : Nat) : State := s.placeCommand nbits w

end Sys2Proof.Machine
end

