-- ==== Sys2Proof/Machine/HostProgram.lean ====
section
/-! DEFINITION. The host notation: primitive lines, pseudo-instructions with their expansions, and the encoding of a program as bus transactions (30_encoding.md R80, R81, R82). -/

namespace Sys2Proof.Machine

/-- A primitive host action, one per line (30_encoding.md R80). -/
inductive HostLine where
  /-- `wr REG, value` -/
  | wr (r : Reg) (v : Word)
  /-- `rd REG` -/
  | rd (r : Reg)
  /-- `st addr, b0 b1 ...` -/
  | st (addr : Word) (bytes : List Byte)
  /-- `ld addr, n` -/
  | ld (addr : Word) (n : Nat)
deriving DecidableEq, Repr

/-- A pseudo-instruction (30_encoding.md R81). -/
inductive Pseudo where
  | key (b : Block)
  | iv (b : Block)
  | crc32 (src len : Word)
  | crcstamp (src len : Word)
  | enc (src dst len : Word)
  | dec (src dst len : Word)
deriving DecidableEq, Repr

/-- The expansion of a pseudo-instruction (R81); the CMD write is last. -/
def expand : Pseudo → List HostLine
  | .key b => [.wr .key0 (unle32 b.c0.toBytes), .wr .key1 (unle32 b.c1.toBytes),
      .wr .key2 (unle32 b.c2.toBytes), .wr .key3 (unle32 b.c3.toBytes)]
  | .iv b => [.wr .iv0 (unle32 b.c0.toBytes), .wr .iv1 (unle32 b.c1.toBytes),
      .wr .iv2 (unle32 b.c2.toBytes), .wr .iv3 (unle32 b.c3.toBytes)]
  | .crc32 src len => [.wr .src src, .wr .len len, .wr .cmd (encode .crc32)]
  | .crcstamp src len => [.wr .src src, .wr .len len, .wr .cmd (encode .crcstamp)]
  | .enc src dst len => [.wr .src src, .wr .dst dst, .wr .len len, .wr .cmd (encode .enc)]
  | .dec src dst len => [.wr .src src, .wr .dst dst, .wr .len len, .wr .cmd (encode .dec)]

/-- The bus transaction of a line: `W off value`, `R off`, and stores and loads as written (R82). -/
def encodeLine (p : Platform) : HostLine → Action
  | .wr r v => .regWrite (regAddr p r) .word v
  | .rd r => .regRead (regAddr p r) .word
  | .st a bs => .store a bs
  | .ld a n => .load a n

/-- The line a bus transaction stands for, if it is one a program can contain (R36, R82). -/
def decodeLine (p : Platform) : Action → Option HostLine
  | .regWrite addr .word v => (regAtAddr p addr).map fun r => .wr r v
  | .regRead addr .word => (regAtAddr p addr).map .rd
  | .regWrite _ _ _ => none
  | .regRead _ _ => none
  | .store a bs => some (.st a bs)
  | .load a n => some (.ld a n)
  | .reset => none

/-- A program's bus transactions (R82). -/
def encodeProgram (p : Platform) (ls : List HostLine) : List Action := ls.map (encodeLine p)

end Sys2Proof.Machine
end

