-- ==== Sys2Proof/Safety.lean ====
section
/-! DEFINITION. The words claims are made in: legal STATUS values, the invariant, the register table, each command's footprint, and several steps in a row (10_state.md R29, R36; 20_memory.md R59). -/

namespace Sys2Proof.Machine

/-- The six values STATUS can hold (10_state.md R29). -/
def statusValues : List Word :=
  [0x00000000#32, 0x00000001#32, 0x00000005#32, 0x00000102#32, 0x00000202#32, 0x00000302#32]

/-- STATUS holds one of its six reachable values (R29). -/
def State.statusLegal (s : State) : Bool := decide (s.status ∈ statusValues)

/-- The invariant of the machine: memory is canonical and STATUS is one of its reachable values. -/
def State.inv (s : State) : Bool := Memory.wf s.mem && s.statusLegal

/-- The table of the register block as 10_state.md R36 prints it: offset and register. -/
def registerTable : List (Nat × Reg) :=
  [(0x00, .cmd), (0x04, .status), (0x08, .src), (0x0C, .dst), (0x10, .len), (0x14, .result),
   (0x20, .key0), (0x24, .key1), (0x28, .key2), (0x2C, .key3),
   (0x30, .iv0), (0x34, .iv1), (0x38, .iv2), (0x3C, .iv3)]

/-- An operand register: one the host writes and the engine never does (10_state.md R21). -/
def operandReg (r : Reg) : Prop := r ≠ .cmd ∧ r ≠ .status ∧ r ≠ .result

/-- An address inside [a, a+n). -/
def inRange (x a n : Nat) : Prop := a ≤ x ∧ x < a + n

/-- The bytes a command may read (20_memory.md R59). -/
def readFootprint (i : Instr) (s : State) (x : Nat) : Prop :=
  match i with
  | .crc32 => inRange x s.src.toNat s.len.toNat
  | .crcstamp => inRange x (s.src.toNat + 4) (s.len.toNat - 4)
  | .enc => inRange x s.src.toNat s.len.toNat
  | .dec => inRange x s.src.toNat s.len.toNat

/-- The bytes a command may write (20_memory.md R59). -/
def writeFootprint (i : Instr) (s : State) (x : Nat) : Prop :=
  match i with
  | .crc32 => False
  | .crcstamp => inRange x s.src.toNat 4
  | .enc => inRange x s.dst.toNat s.len.toNat
  | .dec => inRange x s.dst.toNat s.len.toNat

/-- Everything but the registers, the memory and the platform that a command leaves alone, and the
platform itself. -/
def sameSurroundings (s t : State) : Prop :=
  t.platform = s.platform ∧ t.pending = s.pending ∧ t.seen = s.seen

/-- `n` steps, each answering a next state, lead from `s` to `t`. -/
def stepsTo : Nat → State → State → Prop
  | 0, s, t => s = t
  | n + 1, s, t => ∃ u, step s = .next u ∧ stepsTo n u t

end Sys2Proof.Machine
end

