-- ==== Sys2Proof/Certificates/Slice0/Obligations.lean ====
section
/-! DEFINITION. The statements for the provers: what the commands, the register block, the memory, the checksum and the cipher do, each from a numbered rule or a section of spec/. -/

open Sys2Proof Sys2Proof.Machine

/-! ### Decoding and the CMD register -/

/-- 30_encoding.md R71: the four values, a match of the whole word, and the mnemonic aid of bit 4. -/
def Obligations.DecodeMatchesTheWholeWord : Prop :=
  (encode .crc32 = 0x00000001#32 ∧ encode .crcstamp = 0x00000002#32 ∧
    encode .enc = 0x00000010#32 ∧ encode .dec = 0x00000011#32) ∧
  (∀ (v : Word) (i : Instr), decode v = .ok i ↔ v = encode i) ∧
  (∀ i : Instr, (encode i).getLsbD 4 = true ↔ i = .enc ∨ i = .dec)

/-- 30_encoding.md section 3 and 95_test_vectors.md section 5.2: some words, the commands four of them
start, and that the others are illegal. Which of the two reasons the decoder gives for an illegal word
is the model's choice (notes/assumptions/15.md): R73 has one error for both. -/
def Obligations.SpecCommandWordsDecode : Prop :=
  decode 0x00000001#32 = .ok .crc32 ∧ decode 0x00000002#32 = .ok .crcstamp ∧
  decode 0x00000010#32 = .ok .enc ∧ decode 0x00000011#32 = .ok .dec ∧
  decode 0x00000000#32 = .error .opcode ∧ decode 0x00000003#32 = .error .opcode ∧
  decode 0x00000012#32 = .error .opcode ∧ decode 0x00000110#32 = .error .zeroField ∧
  decode 0x80000001#32 = .error .zeroField ∧ decode 0xFFFFFFFF#32 = .error .zeroField

/-- 10_state.md section 3 (R28), 30_encoding.md section 3 (R73): a step whose action is a write of CMD
executes the command the word encodes, taking the write off the host's queue and nothing else; any
other word is ILLEGAL_CMD; CMD stores nothing and reads 0. The queue is the model's choice
(assumption 5), the register behaviour is the rules'. -/
def Obligations.CmdWriteRunsTheDecodedCommand : Prop :=
  (∀ (s : State) (rest : List Action) (v : Word) (i : Instr),
    s.pending = .regWrite s.platform.regBase .word v :: rest → decode v = .ok i →
      step s = exec i { s with pending := rest }) ∧
  (∀ (s : State) (rest : List Action) (v : Word),
    s.pending = .regWrite s.platform.regBase .word v :: rest → (∀ i : Instr, decode v ≠ .ok i) →
      step s = .next { s with pending := rest, status := 0x00000102#32 }) ∧
  (∀ (s : State) (rest : List Action), s.pending = .regRead s.platform.regBase .word :: rest →
    step s = .next { s with pending := rest, seen := .reg 0x00000000#32 :: s.seen })

/-- 30_encoding.md R73, 60_exceptions.md R172: an illegal word, whatever the operand registers hold. -/
def Obligations.IllegalCommandWordSetsStatusOnly : Prop :=
  ∀ (s : State) (v : Word),
    v ≠ 0x00000001#32 → v ≠ 0x00000002#32 → v ≠ 0x00000010#32 → v ≠ 0x00000011#32 →
      s.writeCommand v = .next { s with status := 0x00000102#32 }

/-! ### The four commands -/

/-- 40_crc.md R96: when CRC32 completes and with what result, and when it ends in an error. -/
def Obligations.Crc32ComputesTheChecksum : Prop :=
  encode .crc32 = 0x00000001#32 ∧ crc32 [0x00#8, 0x00#8, 0x00#8, 0x00#8] = 0x2144DF1C#32 ∧
  ∀ s : State,
    (s.len.toNat ≤ 0x7FFFFFFF → memAdmit s.platform s.src.toNat s.len.toNat = true →
      exec .crc32 s = .next { s with
        result := crc32 ((List.range s.len.toNat).map fun j => Memory.get s.mem (s.src.toNat + j))
        status := 0x00000001#32 }) ∧
    (0x7FFFFFFF < s.len.toNat → exec .crc32 s = .next { s with status := 0x00000202#32 }) ∧
    (s.len.toNat ≤ 0x7FFFFFFF → memAdmit s.platform s.src.toNat s.len.toNat = false →
      exec .crc32 s = .next { s with status := 0x00000302#32 })

/-- 40_crc.md R97: when CRCSTAMP completes, what it stores and returns, and when it ends in an error. -/
def Obligations.CrcstampStoresTheChecksum : Prop :=
  encode .crcstamp = 0x00000002#32 ∧
  ∀ s : State, Memory.wf s.mem = true →
    (4 ≤ s.len.toNat → s.len.toNat ≤ 0x7FFFFFFF →
      memAdmit s.platform s.src.toNat s.len.toNat = true →
      ∃ (c : Word) (m : Memory),
        c = crc32 ((List.range (s.len.toNat - 4)).map fun j =>
          Memory.get s.mem (s.src.toNat + 4 + j)) ∧
        exec .crcstamp s = .next { s with mem := m, result := c, status := 0x00000001#32 } ∧
        ∀ x, Memory.get m x =
          if s.src.toNat ≤ x ∧ x < s.src.toNat + 4 then (c >>> (8 * (x - s.src.toNat))).setWidth 8
          else Memory.get s.mem x) ∧
    (s.len.toNat < 4 ∨ 0x7FFFFFFF < s.len.toNat →
      exec .crcstamp s = .next { s with status := 0x00000202#32 }) ∧
    (4 ≤ s.len.toNat → s.len.toNat ≤ 0x7FFFFFFF →
      memAdmit s.platform s.src.toNat s.len.toNat = false →
      exec .crcstamp s = .next { s with status := 0x00000302#32 })

/-- 42_cipher.md R149: when ENC completes and what it writes, and when it ends in an error, under
MULTI_CHUNK = compute-and-flag as 00_scope.md R9 decides (`StricterMultiChunkRefusesMoreChunks` is the
other setting). The key and IV are unpacked as 10_state.md R25 and R26 say. -/
def Obligations.EncWritesTheEncryptedInput : Prop :=
  encode .enc = 0x00000010#32 ∧
  ∀ s : State, Memory.wf s.mem = true → s.platform.multiChunk = .computeAndFlag →
    (s.len.toNat ≤ 0x7FFFFFFF → s.len.toNat % 16 = 0 →
      memAdmit s.platform s.src.toNat s.len.toNat = true →
      memAdmit s.platform s.dst.toNat s.len.toNat = true →
      ∃ m : Memory,
        exec .enc s = .next { s with
          mem := m, status := if 4096 < s.len.toNat then 0x00000005#32 else 0x00000001#32 } ∧
        ∀ x, Memory.get m x =
          if s.dst.toNat ≤ x ∧ x < s.dst.toNat + s.len.toNat then
            (transformEnc (Block.ofBytes (le32 s.key0 ++ le32 s.key1 ++ le32 s.key2 ++ le32 s.key3))
              (Block.ofBytes (le32 s.iv0 ++ le32 s.iv1 ++ le32 s.iv2 ++ le32 s.iv3))
              ((List.range s.len.toNat).map fun j => Memory.get s.mem (s.src.toNat + j))).getD
                (x - s.dst.toNat) 0#8
          else Memory.get s.mem x) ∧
    (0x7FFFFFFF < s.len.toNat ∨ s.len.toNat % 16 ≠ 0 →
      exec .enc s = .next { s with status := 0x00000202#32 }) ∧
    (s.len.toNat ≤ 0x7FFFFFFF → s.len.toNat % 16 = 0 →
      (memAdmit s.platform s.src.toNat s.len.toNat = false ∨
        memAdmit s.platform s.dst.toNat s.len.toNat = false) →
      exec .enc s = .next { s with status := 0x00000302#32 })

/-- 42_cipher.md R150: DEC, as R149 with TransformDec, under the same MULTI_CHUNK. -/
def Obligations.DecWritesTheDecryptedInput : Prop :=
  encode .dec = 0x00000011#32 ∧
  ∀ s : State, Memory.wf s.mem = true → s.platform.multiChunk = .computeAndFlag →
    (s.len.toNat ≤ 0x7FFFFFFF → s.len.toNat % 16 = 0 →
      memAdmit s.platform s.src.toNat s.len.toNat = true →
      memAdmit s.platform s.dst.toNat s.len.toNat = true →
      ∃ m : Memory,
        exec .dec s = .next { s with
          mem := m, status := if 4096 < s.len.toNat then 0x00000005#32 else 0x00000001#32 } ∧
        ∀ x, Memory.get m x =
          if s.dst.toNat ≤ x ∧ x < s.dst.toNat + s.len.toNat then
            (transformDec (Block.ofBytes (le32 s.key0 ++ le32 s.key1 ++ le32 s.key2 ++ le32 s.key3))
              (Block.ofBytes (le32 s.iv0 ++ le32 s.iv1 ++ le32 s.iv2 ++ le32 s.iv3))
              ((List.range s.len.toNat).map fun j => Memory.get s.mem (s.src.toNat + j))).getD
                (x - s.dst.toNat) 0#8
          else Memory.get s.mem x) ∧
    (0x7FFFFFFF < s.len.toNat ∨ s.len.toNat % 16 ≠ 0 →
      exec .dec s = .next { s with status := 0x00000202#32 }) ∧
    (s.len.toNat ≤ 0x7FFFFFFF → s.len.toNat % 16 = 0 →
      (memAdmit s.platform s.src.toNat s.len.toNat = false ∨
        memAdmit s.platform s.dst.toNat s.len.toNat = false) →
      exec .dec s = .next { s with status := 0x00000302#32 })

/-- The stricter configuration MULTI_CHUNK = refuse (00_scope.md section 4, 92_eei_decisions.md D16;
assumption 4): more than one chunk is BAD_LEN, and up to one chunk nothing differs from the default. -/
def Obligations.StricterMultiChunkRefusesMoreChunks : Prop :=
  ∀ (i : Instr) (s : State), i = .enc ∨ i = .dec → s.platform.multiChunk = .refuse →
    (4096 < s.len.toNat → exec i s = .next { s with status := 0x00000202#32 }) ∧
    (s.len.toNat ≤ 4096 → ∃ u : State,
      exec i { s with platform := { s.platform with multiChunk := .computeAndFlag } } = .next u ∧
      exec i s = .next { u with platform := s.platform })

/-- 60_exceptions.md R173, R175: one error, the first that applies in the fixed order, under
MULTI_CHUNK = compute-and-flag as 00_scope.md R9 decides. -/
def Obligations.CommandReportsTheFirstError : Prop :=
  ∀ (s : State) (v : Word), s.platform.multiChunk = .computeAndFlag →
    ∃ t : State, s.writeCommand v = .next t ∧ t.status =
      if v ≠ 0x00000001#32 ∧ v ≠ 0x00000002#32 ∧ v ≠ 0x00000010#32 ∧ v ≠ 0x00000011#32 then
        0x00000102#32
      else if 0x7FFFFFFF < s.len.toNat ∨ (v = 0x00000002#32 ∧ s.len.toNat < 4) ∨
          ((v = 0x00000010#32 ∨ v = 0x00000011#32) ∧ s.len.toNat % 16 ≠ 0) then
        0x00000202#32
      else if memAdmit s.platform s.src.toNat s.len.toNat = false ∨
          ((v = 0x00000010#32 ∨ v = 0x00000011#32) ∧
            memAdmit s.platform s.dst.toNat s.len.toNat = false) then
        0x00000302#32
      else if (v = 0x00000010#32 ∨ v = 0x00000011#32) ∧ 4096 < s.len.toNat then 0x00000005#32
      else 0x00000001#32

/-- 60_exceptions.md R176: an error is visible in STATUS only: ERR = 1, OK = 0, MC = 0, ECODE the code. -/
def Obligations.AnErrorChangesStatusOnly : Prop :=
  ∀ (s t : State) (v : Word), s.writeCommand v = .next t → statusErrBit t.status = true →
    ∃ code : BitVec 4, (code = 1#4 ∨ code = 2#4 ∨ code = 3#4) ∧
      t = { s with status := 0x00000002#32 ||| code.setWidth 32 <<< 8 } ∧
      statusOkBit t.status = false ∧ statusMcBit t.status = false ∧ statusEcode t.status = code

/-- 10_state.md section 3 (the field table of STATUS) and 60_exceptions.md section 4 (MC). -/
def Obligations.StatusDescribesTheLastCommand : Prop :=
  ∀ (s t : State) (v : Word), s.writeCommand v = .next t →
    (statusOkBit t.status = !statusErrBit t.status) ∧
    (statusMcBit t.status = true ↔ statusOkBit t.status = true ∧
      (decode v = .ok .enc ∨ decode v = .ok .dec) ∧ 4096 < s.len.toNat) ∧
    (statusEcode t.status = 0#4 ↔ statusErrBit t.status = false) ∧
    statusReserved t.status = 0#32

/-! ### What each command leaves unchanged -/

/-- The frame of CRC32 (30_encoding.md section 2, 20_memory.md section 3): RESULT and STATUS may
change, no other register and no byte of memory. -/
def Obligations.Crc32Frame : Prop :=
  ∀ s t : State, exec .crc32 s = .next t →
    (∀ r : Reg, r ≠ .result → r ≠ .status → t.readReg r = s.readReg r) ∧
    (∀ x, Memory.get t.mem x = Memory.get s.mem x) ∧ sameSurroundings s t

/-- The frame of CRCSTAMP: RESULT, STATUS and the four bytes at SRC may change, nothing else. -/
def Obligations.CrcstampFrame : Prop :=
  ∀ s t : State, Memory.wf s.mem = true → exec .crcstamp s = .next t →
    (∀ r : Reg, r ≠ .result → r ≠ .status → t.readReg r = s.readReg r) ∧
    (∀ x, ¬(s.src.toNat ≤ x ∧ x < s.src.toNat + 4) →
      Memory.get t.mem x = Memory.get s.mem x) ∧ sameSurroundings s t

/-- The frame of ENC and DEC: STATUS and the LEN bytes at DST may change, nothing else; RESULT does not. -/
def Obligations.CipherFrame : Prop :=
  ∀ (i : Instr) (s t : State), i = .enc ∨ i = .dec → Memory.wf s.mem = true →
    exec i s = .next t →
    (∀ r : Reg, r ≠ .status → t.readReg r = s.readReg r) ∧
    (∀ x, ¬(s.dst.toNat ≤ x ∧ x < s.dst.toNat + s.len.toNat) →
      Memory.get t.mem x = Memory.get s.mem x) ∧ sameSurroundings s t

/-- 20_memory.md R59: a command reads only its read range (two states that agree there and on the
registers and the platform give the same outcome) and writes only its write range; an error writes
nothing. -/
def Obligations.CommandTouchesOnlyItsFootprint : Prop :=
  ∀ (i : Instr) (s s' t t' : State), Memory.wf s.mem = true → Memory.wf s'.mem = true →
    (∀ r : Reg, r ≠ .result → r ≠ .status → s.readReg r = s'.readReg r) →
    s.platform = s'.platform →
    (∀ x, readFootprint i s x → Memory.get s.mem x = Memory.get s'.mem x) →
    exec i s = .next t → exec i s' = .next t' →
      t.status = t'.status ∧
      (statusOkBit t.status = true → i = .crc32 ∨ i = .crcstamp → t.result = t'.result) ∧
      (statusOkBit t.status = true → ∀ x, writeFootprint i s x →
        Memory.get t.mem x = Memory.get t'.mem x) ∧
      (∀ x, ¬writeFootprint i s x → Memory.get t.mem x = Memory.get s.mem x) ∧
      (statusErrBit t.status = true → ∀ x, Memory.get t.mem x = Memory.get s.mem x)

/-- 20_memory.md section 3 (R62): what a repeated command does. -/
def Obligations.RepeatedCommandsChangeNothing : Prop :=
  ∀ (i : Instr) (s t : State), Memory.wf s.mem = true → exec i s = .next t →
    (i = .enc ∨ i = .dec → s.src.toNat + s.len.toNat ≤ s.dst.toNat ∨
      s.dst.toNat + s.len.toNat ≤ s.src.toNat) →
    exec i t = .next t

/-- 40_crc.md section 4 (R99): a stamped record is checksum-valid and stays so while its bytes do. -/
def Obligations.CrcstampMakesTheRecordValid : Prop :=
  ∀ s t : State, Memory.wf s.mem = true → exec .crcstamp s = .next t →
    statusOkBit t.status = true →
    ∀ m : Memory, (∀ x, s.src.toNat ≤ x → x < s.src.toNat + s.len.toNat →
        Memory.get m x = Memory.get t.mem x) →
      checksumValid (Memory.read m s.src.toNat s.len.toNat) = true

/-- 40_crc.md section 4 (R98): how the host verifies a record of L = LEN + 4 bytes at SRC - 4. -/
def Obligations.Crc32VerifiesARecord : Prop :=
  ∀ s t : State, 4 ≤ s.src.toNat → exec .crc32 s = .next t → statusOkBit t.status = true →
    (checksumValid (Memory.read s.mem (s.src.toNat - 4) (s.len.toNat + 4)) = true ↔
      t.result = unle32 (Memory.read s.mem (s.src.toNat - 4) 4))

/-! ### The register block -/

/-- 70_reset_and_hazards.md R204: RESULT changes only through a completed CRC32 or CRCSTAMP (or the
reset event, 10_state.md R37); an error, ENC and DEC leave it. -/
def Obligations.ResultWrittenOnlyByCompletedChecksum : Prop :=
  ∀ s t : State, step s = .next t → t.result ≠ s.result →
    (∃ (v : Word) (rest : List Action), s.pending = .regWrite s.platform.regBase .word v :: rest ∧
      (v = 0x00000001#32 ∨ v = 0x00000002#32) ∧ t.status = 0x00000001#32) ∨
    (∃ rest : List Action, s.pending = .reset :: rest ∧ t.result = 0#32)

/-- 10_state.md section 1 (R21), 70_reset_and_hazards.md section 3 (R206): an operand register changes
only where the host writes it, to the value written, or at the reset event, to 0. -/
def Obligations.OperandRegistersWrittenOnlyByTheHost : Prop :=
  ∀ (s t : State) (off : Nat) (r : Reg), (off, r) ∈ registerTable → operandReg r →
    step s = .next t → t.readReg r ≠ s.readReg r →
    (∃ rest : List Action,
      s.pending = .regWrite (s.platform.regBase + off) .word (t.readReg r) :: rest) ∨
    (∃ rest : List Action, s.pending = .reset :: rest ∧ t.readReg r = 0#32)

/-- 30_encoding.md R74: every 32-bit value can be stored in an operand register; nothing else changes. -/
def Obligations.OperandRegisterStoresEveryValue : Prop :=
  ∀ (s : State) (rest : List Action) (off : Nat) (r : Reg) (v : Word),
    (off, r) ∈ registerTable → operandReg r →
    s.pending = .regWrite (s.platform.regBase + off) .word v :: rest →
      ∃ t : State, step s = .next t ∧ t.readReg r = v ∧
        (∀ q : Reg, q ≠ r → t.readReg q = s.readReg q) ∧ t.mem = s.mem ∧
        t.platform = s.platform ∧ t.pending = rest ∧ t.seen = s.seen

/-- 10_state.md section 6 (R27, R29, R36): a host write of STATUS or RESULT is ignored. -/
def Obligations.StatusAndResultIgnoreHostWrites : Prop :=
  ∀ (s : State) (rest : List Action) (off : Nat) (v : Word), off = 0x04 ∨ off = 0x14 →
    s.pending = .regWrite (s.platform.regBase + off) .word v :: rest →
      step s = .next { s with pending := rest }

/-- 10_state.md section 6 (R36): a read of a listed register returns it and has no side effect. -/
def Obligations.RegisterReadReturnsItsValue : Prop :=
  ∀ (s : State) (rest : List Action) (off : Nat) (r : Reg), (off, r) ∈ registerTable →
    s.pending = .regRead (s.platform.regBase + off) .word :: rest →
      step s = .next { s with pending := rest, seen := .reg (s.readReg r) :: s.seen }

/-- 10_state.md section 6, 60_exceptions.md section 6 (R182): the model refuses exactly the register
accesses that are not 32 bits wide or not at a listed offset. -/
def Obligations.StepRefusesExactlyUnlistedAccesses : Prop :=
  ∀ s : State, (∃ e : Refusal, step s = .refused e) ↔
    ∃ (addr : Nat) (w : Width) (rest : List Action),
      ((∃ v : Word, s.pending = .regWrite addr w v :: rest) ∨
        s.pending = .regRead addr w :: rest) ∧
      (w ≠ .word ∨ ∀ off r, (off, r) ∈ registerTable → addr ≠ s.platform.regBase + off)

/-- 10_state.md section 8 (R38), with the model's reading of an unadmitted byte (assumption 7): a step
faults exactly where a host store or load touches a byte MemAdmit does not admit. -/
def Obligations.StepFaultsExactlyOnUnadmittedBytes : Prop :=
  ∀ s : State, (∃ f : Fault, step s = .fault f) ↔
    ∃ (addr : Word) (n j : Nat) (rest : List Action), j < n ∧
      ((∃ bs : List Byte, bs.length = n ∧ s.pending = .store addr bs :: rest) ∨
        s.pending = .load addr n :: rest) ∧
      memAdmit s.platform (addr.toNat + j) 1 = false

/-! ### Memory, the host's accesses, order and reset -/

/-- 20_memory.md R53, R54: MemRead returns the bytes of its range in order; MemWrite sets the bytes of
its range and changes no other byte. -/
def Obligations.MemReadAndMemWrite : Prop :=
  (∀ (m : Memory) (a n : Nat), (Memory.read m a n).length = n ∧
    ∀ j, j < n → (Memory.read m a n).getD j 0#8 = Memory.get m (a + j)) ∧
  (∀ (m : Memory) (a : Nat) (bs : List Byte), Memory.wf m = true → a + bs.length ≤ 2 ^ 32 →
    ∀ x, Memory.get (Memory.write m a bs) x =
      if a ≤ x ∧ x < a + bs.length then bs.getD (x - a) 0#8 else Memory.get m x)

/-- 20_memory.md section 1 (R50, R52): what MemAdmit satisfies on every platform. -/
def Obligations.MemAdmitMeetsItsConstraint : Prop :=
  ∀ (p : Platform) (a n : Nat),
    memAdmit p a 0 = true ∧
    (0 < n → memAdmit p a n = true → a + n ≤ 2 ^ 32) ∧
    (∀ a' n', memAdmit p a n = true → a ≤ a' → a' + n' ≤ a + n → memAdmit p a' n' = true) ∧
    (0 < n → memAdmit p a n = true → p.regsInBufferSpace = true →
      a + n ≤ p.regBase ∨ p.regBase + 64 ≤ a)

/-- 20_memory.md section 1 (R52, "Nothing else is assumed of it"): every predicate that satisfies R52
is the MemAdmit of some platform, so the model loses none. -/
def Obligations.EveryAdmissionPredicateHasAPlatform : Prop :=
  ∀ P : Nat → Nat → Bool, (∀ a, P a 0 = true) →
    (∀ a n, 0 < n → P a n = true → a + n ≤ 2 ^ 32) →
    (∀ a n a' n', P a n = true → a ≤ a' → a' + n' ≤ a + n → P a' n' = true) →
    ∃ p : Platform, ∀ a n, memAdmit p a n = P a n

/-- 30_encoding.md section 6 (R80 `st`): a host store of admitted bytes. -/
def Obligations.HostStoreWritesItsBytes : Prop :=
  ∀ (s : State) (rest : List Action) (a : Word) (bs : List Byte), Memory.wf s.mem = true →
    s.pending = .store a bs :: rest →
    (∀ j, j < bs.length → memAdmit s.platform (a.toNat + j) 1 = true) →
      ∃ m : Memory, step s = .next { s with pending := rest, mem := m } ∧
        ∀ x, Memory.get m x =
          if a.toNat ≤ x ∧ x < a.toNat + bs.length then bs.getD (x - a.toNat) 0#8
          else Memory.get s.mem x

/-- 30_encoding.md section 6 (R80 `ld`): a host load of admitted bytes; it changes nothing. -/
def Obligations.HostLoadReturnsItsBytes : Prop :=
  ∀ (s : State) (rest : List Action) (a : Word) (n : Nat), s.pending = .load a n :: rest →
    (∀ j, j < n → memAdmit s.platform (a.toNat + j) 1 = true) →
      step s = .next { s with
        pending := rest
        seen := .bytes ((List.range n).map fun j => Memory.get s.mem (a.toNat + j)) :: s.seen }

/-- 20_memory.md section 4 (R63), 60_exceptions.md section 7 (R187): a step performs the oldest action
and leaves the later ones; idle with none. The queue is the model's (assumption 5). -/
def Obligations.StepTakesOneActionInOrder : Prop :=
  (∀ s : State, s.pending = [] → step s = .next s) ∧
  (∀ (s : State) (a : Action) (rest : List Action), s.pending = a :: rest →
    step s = (s.withPending rest).perform a ∧ ∀ t : State, step s = .next t → t.pending = rest) ∧
  (∀ s t : State, step s = .next t →
    (s.pending = [] ∧ t = s) ∨ (∃ a : Action, s.pending = a :: t.pending))

/-- 70_reset_and_hazards.md section 1 (R195, R196), 10_state.md section 7 (R37): the reset event. -/
def Obligations.ResetEventClearsTheRegistersOnly : Prop :=
  ∀ (s : State) (rest : List Action), s.pending = .reset :: rest →
    ∃ t : State, step s = .next t ∧ (∀ r : Reg, t.readReg r = 0x00000000#32) ∧
      t.mem = s.mem ∧ t.platform = s.platform ∧ t.pending = rest ∧ t.seen = s.seen

/-- 10_state.md section 7 (R37): every register is 0 after reset. -/
def Obligations.ResetRegistersAreZero : Prop :=
  ∀ r : Reg, State.reset.readReg r = 0x00000000#32

/-- The invariant holds at reset (10_state.md sections 3 and 7). -/
def Obligations.ResetMeetsTheInvariant : Prop := State.reset.inv = true

/-- Every step keeps the invariant: memory canonical, STATUS one of its six reachable values
(10_state.md section 3). -/
def Obligations.StepKeepsTheInvariant : Prop :=
  ∀ s t : State, s.inv = true → step s = .next t → t.inv = true

/-- 00_scope.md section 4 (R9): no step changes the platform's parameters. -/
def Obligations.PlatformNeverChanges : Prop :=
  ∀ s t : State, step s = .next t → t.platform = s.platform

/-- 42_cipher.md section 4 (R155, "every command terminates"): no command stops the machine. -/
def Obligations.EveryCommandCompletes : Prop :=
  ∀ (i : Instr) (s : State), ∃ t : State, exec i s = .next t

/-! ### The checksum -/

/-- 40_crc.md section 1 (R91): each of the 256 listed entries is the formula's. -/
def Obligations.CrcTableIsTheFormula : Prop :=
  crcTable.length = 256 ∧ ∀ n : Byte, crcEntry n = crcShifts 8 (n.setWidth 32)

/-- 40_crc.md R94: the bit-at-a-time form agrees with the table form; G is linear. -/
def Obligations.CrcStepIsEightShifts : Prop :=
  (∀ (c : Word) (b : Byte), crcStep c b = crcShifts 8 (c ^^^ b.setWidth 32)) ∧
  (∀ u v : Word, crcShift (u ^^^ v) = crcShift u ^^^ crcShift v) ∧
  (∀ v : Word, crcShifts 8 v = crcEntry (v.extractLsb' 0 8) ^^^ (v >>> 8))

/-- 40_crc.md R92, R93: the empty sequence, one more byte, and the reference value. -/
def Obligations.Crc32ConsumesBytesInOrder : Prop :=
  crc32 [] = 0x00000000#32 ∧
  (∀ (bs : List Byte) (b : Byte), ~~~(crc32 (bs ++ [b])) =
    crcEntry ((~~~(crc32 bs) ^^^ b.setWidth 32).extractLsb' 0 8) ^^^ (~~~(crc32 bs) >>> 8)) ∧
  crc32 [0x31#8, 0x32#8, 0x33#8, 0x34#8, 0x35#8, 0x36#8, 0x37#8, 0x38#8, 0x39#8] = 0xCBF43926#32

/-- 40_crc.md section 1 (R101): Crc32 is affine over XOR. -/
def Obligations.Crc32IsAffine : Prop :=
  ∀ a b c : List Byte, a.length = b.length → b.length = c.length →
    crc32 a ^^^ crc32 b ^^^ crc32 c = crc32 (xorBytes (xorBytes a b) c)

/-! ### AES-128 -/

/-- 41_aes.md R112: multiplication by x, the product, the laws of the field and the rule's examples. -/
def Obligations.FieldLaws : Prop :=
  (xtime 0x57#8 = 0xAE#8 ∧ xtime 0xAE#8 = 0x47#8 ∧ gmul 0x57#8 0x13#8 = 0xFE#8 ∧
    gmul 0x57#8 0x83#8 = 0xC1#8 ∧ ginv 0x53#8 = 0xCA#8) ∧
  ∀ a b c : Byte,
    xtime a = (if a.getLsbD 7 = false then a <<< 1 else (a <<< 1) ^^^ 0x1B#8) ∧
    gmul a b = (List.range 8).foldl (fun z j =>
      if b.getLsbD j then z ^^^ (List.range j).foldl (fun x _ => xtime x) a else z) 0#8 ∧
    gmul a b = gmul b a ∧ gmul (gmul a b) c = gmul a (gmul b c) ∧
    gmul a (b ^^^ c) = gmul a b ^^^ gmul a c ∧ gmul a 1#8 = a ∧ gmul a 0#8 = 0#8 ∧
    (a ≠ 0#8 → gmul a (ginv a) = 1#8 ∧ (gmul a b = 1#8 → b = ginv a)) ∧ ginv 0#8 = 0#8

/-- 41_aes.md section 2 (R114, R115): the tables are the formula and its inverse, and permutations. -/
def Obligations.SboxesFollowTheFormula : Prop :=
  ∀ a : Byte, sbox a = sboxFormula a ∧ invSbox (sbox a) = a ∧ sbox (invSbox a) = a

/-- 41_aes.md R116, R118, R119: what SubBytes, MixColumns, AddRoundKey and their inverses put at byte
r + 4c of a block, and that each round transformation (R117's too) and its inverse undo one another. -/
def Obligations.RoundTransformationsInvert : Prop :=
  (∀ (s : Block) (r c : Nat), r < 4 → c < 4 →
    (subBytes s).toBytes.getD (r + 4 * c) 0#8 = sbox (s.toBytes.getD (r + 4 * c) 0#8) ∧
    (invSubBytes s).toBytes.getD (r + 4 * c) 0#8 = invSbox (s.toBytes.getD (r + 4 * c) 0#8)) ∧
  (∀ a : Byte, gmul 0x02#8 a = xtime a ∧ gmul 0x03#8 a = xtime a ^^^ a) ∧
  (∀ (s : Block) (c : Nat) (a0 a1 a2 a3 : Byte), c < 4 →
    Col.ofBytes s.toBytes (4 * c) = ⟨a0, a1, a2, a3⟩ →
    Col.ofBytes (mixColumns s).toBytes (4 * c) =
      ⟨gmul 0x02#8 a0 ^^^ gmul 0x03#8 a1 ^^^ a2 ^^^ a3,
       a0 ^^^ gmul 0x02#8 a1 ^^^ gmul 0x03#8 a2 ^^^ a3,
       a0 ^^^ a1 ^^^ gmul 0x02#8 a2 ^^^ gmul 0x03#8 a3,
       gmul 0x03#8 a0 ^^^ a1 ^^^ a2 ^^^ gmul 0x02#8 a3⟩ ∧
    Col.ofBytes (invMixColumns s).toBytes (4 * c) =
      ⟨gmul 0x0E#8 a0 ^^^ gmul 0x0B#8 a1 ^^^ gmul 0x0D#8 a2 ^^^ gmul 0x09#8 a3,
       gmul 0x09#8 a0 ^^^ gmul 0x0E#8 a1 ^^^ gmul 0x0B#8 a2 ^^^ gmul 0x0D#8 a3,
       gmul 0x0D#8 a0 ^^^ gmul 0x09#8 a1 ^^^ gmul 0x0E#8 a2 ^^^ gmul 0x0B#8 a3,
       gmul 0x0B#8 a0 ^^^ gmul 0x0D#8 a1 ^^^ gmul 0x09#8 a2 ^^^ gmul 0x0E#8 a3⟩) ∧
  (mixCol ⟨0xDB#8, 0x13#8, 0x53#8, 0x45#8⟩ = ⟨0x8E#8, 0x4D#8, 0xA1#8, 0xBC#8⟩ ∧
    invMixCol ⟨0x8E#8, 0x4D#8, 0xA1#8, 0xBC#8⟩ = ⟨0xDB#8, 0x13#8, 0x53#8, 0x45#8⟩) ∧
  (∀ (k s : Block) (j r c : Nat), j ≤ 10 → r < 4 → c < 4 →
    (addRoundKey k j s).toBytes.getD (r + 4 * c) 0#8 =
      s.toBytes.getD (r + 4 * c) 0#8 ^^^ (keyWord k (4 * j + c)).toBytes.getD r 0#8 ∧
    (roundKey k j).toBytes =
      (keyWord k (4 * j)).toBytes ++ (keyWord k (4 * j + 1)).toBytes ++
        (keyWord k (4 * j + 2)).toBytes ++ (keyWord k (4 * j + 3)).toBytes ∧
    addRoundKey k j s = s.xor (roundKey k j)) ∧
  ∀ (k s : Block) (j : Nat),
    invSubBytes (subBytes s) = s ∧ subBytes (invSubBytes s) = s ∧
    invShiftRows (shiftRows s) = s ∧ shiftRows (invShiftRows s) = s ∧
    invMixColumns (mixColumns s) = s ∧ mixColumns (invMixColumns s) = s ∧
    addRoundKey k j (addRoundKey k j s) = s

/-- 41_aes.md R117: where ShiftRows and InvShiftRows take each byte from, in block byte indices. -/
def Obligations.ShiftRowsMovesBytes : Prop :=
  ∀ (s : Block) (r c : Nat), r < 4 → c < 4 →
    (shiftRows s).toBytes.getD (r + 4 * c) 0#8 = s.toBytes.getD (r + 4 * ((c + r) % 4)) 0#8 ∧
    (invShiftRows s).toBytes.getD (r + 4 * c) 0#8 =
      s.toBytes.getD (r + 4 * ((c + 4 - r) % 4)) 0#8 ∧
    invShiftRows (shiftRows s) = s ∧ shiftRows (invShiftRows s) = s

/-- 41_aes.md R120: the recurrence of KeyExpansion on its 44 words. -/
def Obligations.KeyExpansionRecurrence : Prop :=
  (∀ (k : Block) (i : Nat), i < 4 → keyWord k i = Col.ofBytes k.toBytes (4 * i)) ∧
  (∀ (k : Block) (i : Nat), 4 ≤ i → i ≤ 43 →
    keyWord k i = (keyWord k (i - 4)).xor
      (if i % 4 = 0 then
        (subWord (rotWord (keyWord k (i - 1)))).xor ⟨rcon (i / 4), 0x00#8, 0x00#8, 0x00#8⟩
      else keyWord k (i - 1))) ∧
  (∀ a0 a1 a2 a3 : Byte, rotWord ⟨a0, a1, a2, a3⟩ = ⟨a1, a2, a3, a0⟩ ∧
    subWord ⟨a0, a1, a2, a3⟩ = ⟨sbox a0, sbox a1, sbox a2, sbox a3⟩) ∧
  (List.range 10).map (fun j => rcon (j + 1)) =
    [0x01#8, 0x02#8, 0x04#8, 0x08#8, 0x10#8, 0x20#8, 0x40#8, 0x80#8, 0x1B#8, 0x36#8] ∧
  (∀ k : Block, roundKey k 0 = k)

/-- 41_aes.md R121, R122, R123, R124: the rounds of AesEnc and AesDec in order, that each inverts the
other for every key, and the published values. -/
def Obligations.AesDecInvertsAesEnc : Prop :=
  (∀ k x : Block, aesDec k (aesEnc k x) = x ∧ aesEnc k (aesDec k x) = x) ∧
  (∀ k p : Block, aesEnc k p =
    addRoundKey k 10 (shiftRows (subBytes
      ([1, 2, 3, 4, 5, 6, 7, 8, 9].foldl
        (fun s j => addRoundKey k j (mixColumns (shiftRows (subBytes s)))) (addRoundKey k 0 p))))) ∧
  (∀ k c : Block, aesDec k c =
    addRoundKey k 0 (invSubBytes (invShiftRows
      ([9, 8, 7, 6, 5, 4, 3, 2, 1].foldl
        (fun s j => invMixColumns (addRoundKey k j (invSubBytes (invShiftRows s))))
        (addRoundKey k 10 c))))) ∧
  (aesEnc (Block.ofBytes [0x2B#8, 0x7E#8, 0x15#8, 0x16#8, 0x28#8, 0xAE#8, 0xD2#8, 0xA6#8,
        0xAB#8, 0xF7#8, 0x15#8, 0x88#8, 0x09#8, 0xCF#8, 0x4F#8, 0x3C#8])
      (Block.ofBytes [0x32#8, 0x43#8, 0xF6#8, 0xA8#8, 0x88#8, 0x5A#8, 0x30#8, 0x8D#8,
        0x31#8, 0x31#8, 0x98#8, 0xA2#8, 0xE0#8, 0x37#8, 0x07#8, 0x34#8]) =
    Block.ofBytes [0x39#8, 0x25#8, 0x84#8, 0x1D#8, 0x02#8, 0xDC#8, 0x09#8, 0xFB#8,
      0xDC#8, 0x11#8, 0x85#8, 0x97#8, 0x19#8, 0x6A#8, 0x0B#8, 0x32#8]) ∧
  (aesEnc (Block.ofBytes [0x00#8, 0x01#8, 0x02#8, 0x03#8, 0x04#8, 0x05#8, 0x06#8, 0x07#8,
        0x08#8, 0x09#8, 0x0A#8, 0x0B#8, 0x0C#8, 0x0D#8, 0x0E#8, 0x0F#8])
      (Block.ofBytes [0x00#8, 0x11#8, 0x22#8, 0x33#8, 0x44#8, 0x55#8, 0x66#8, 0x77#8,
        0x88#8, 0x99#8, 0xAA#8, 0xBB#8, 0xCC#8, 0xDD#8, 0xEE#8, 0xFF#8]) =
    Block.ofBytes [0x69#8, 0xC4#8, 0xE0#8, 0xD8#8, 0x6A#8, 0x7B#8, 0x04#8, 0x30#8,
      0xD8#8, 0xCD#8, 0xB7#8, 0x80#8, 0x70#8, 0xB4#8, 0xC5#8, 0x5A#8]) ∧
  (aesEnc (Block.ofBytes (List.replicate 16 0x00#8)) (Block.ofBytes (List.replicate 16 0x00#8)) =
    Block.ofBytes [0x66#8, 0xE9#8, 0x4B#8, 0xD4#8, 0xEF#8, 0x8A#8, 0x2C#8, 0x3B#8,
      0x88#8, 0x4C#8, 0xFA#8, 0x59#8, 0xCA#8, 0x34#8, 0x2B#8, 0x2E#8]) ∧
  (aesDec (Block.ofBytes (List.replicate 16 0x00#8)) (Block.ofBytes (List.replicate 16 0x00#8)) =
    Block.ofBytes [0x14#8, 0x0F#8, 0x0F#8, 0x10#8, 0x11#8, 0xB5#8, 0x22#8, 0x3D#8,
      0x79#8, 0x58#8, 0x77#8, 0x17#8, 0xFF#8, 0xD9#8, 0xEC#8, 0x3A#8])

/-! ### CBC, the tweak and the transform -/

/-- 42_cipher.md R142, R143: the CBC recurrences, block by block, on 16n bytes, n ≥ 1. -/
def Obligations.CbcRecurrences : Prop :=
  ∀ (k iv : Block) (x : List Byte) (n : Nat), 1 ≤ n → x.length = 16 * n →
    ((cbcEnc k iv x).length = 16 * n ∧ ∀ i, i < n →
      Block.ofBytes ((cbcEnc k iv x).drop (16 * i)) =
        aesEnc k ((Block.ofBytes (x.drop (16 * i))).xor
          (if i = 0 then iv else Block.ofBytes ((cbcEnc k iv x).drop (16 * (i - 1)))))) ∧
    ((cbcDec k iv x).length = 16 * n ∧ ∀ i, i < n →
      Block.ofBytes ((cbcDec k iv x).drop (16 * i)) =
        (aesDec k (Block.ofBytes (x.drop (16 * i)))).xor
          (if i = 0 then iv else Block.ofBytes (x.drop (16 * (i - 1)))))

/-- 42_cipher.md R159: CbcDec inverts CbcEnc and CbcEnc inverts CbcDec on whole blocks. -/
def Obligations.CbcRoundTrip : Prop :=
  ∀ (k iv : Block) (x : List Byte) (n : Nat), 1 ≤ n → x.length = 16 * n →
    cbcDec k iv (cbcEnc k iv x) = x ∧ cbcEnc k iv (cbcDec k iv x) = x

/-- 42_cipher.md R144: the bytes of the tweak mask; the two widenings of `off` agree. -/
def Obligations.TweakMaskBytes : Prop :=
  ∀ off : Nat, off < 2 ^ 31 →
    tweakMask off = le64 (BitVec.ofNat 64 off) ++ le64 (BitVec.ofNat 64 off) ∧
    (∀ j, j < 16 → (tweakMask off).getD j 0#8 = BitVec.ofNat 8 (off / 2 ^ (8 * (j % 8)))) ∧
    (∀ j, 4 ≤ j → j < 8 → (tweakMask off).getD j 0xFF#8 = 0x00#8 ∧
      (tweakMask off).getD (j + 8) 0xFF#8 = 0x00#8) ∧
    (off % 4096 = 0 → (tweakMask off).getD 0 0xFF#8 = 0x00#8 ∧
      (tweakMask off).getD 8 0xFF#8 = 0x00#8 ∧
      ((tweakMask off).getD 1 0xFF#8).extractLsb' 0 4 = 0#4 ∧
      ((tweakMask off).getD 9 0xFF#8).extractLsb' 0 4 = 0#4) ∧
    (BitVec.ofNat 32 off).signExtend 64 = (BitVec.ofNat 32 off).setWidth 64 ∧
    (BitVec.ofNat 32 off).setWidth 64 = BitVec.ofNat 64 off

/-- 42_cipher.md section 3 (R145): the tweak in SAMFL's words, on two little-endian 64-bit integers,
the rest copied; and applied twice it is gone. -/
def Obligations.TweakXorsTheTwoWords : Prop :=
  ∀ (off : Nat) (y : List Byte), 16 ≤ y.length →
    applyTweak off y =
      le64 (unle64 (y.take 8) ^^^ BitVec.ofNat 64 off) ++
        le64 (unle64 ((y.drop 8).take 8) ^^^ BitVec.ofNat 64 off) ++ y.drop 16 ∧
    applyTweak off (applyTweak off y) = y

/-- 42_cipher.md R151: the tweak is a no-op at offset 0 and changes every later chunk. -/
def Obligations.TweakChangesEveryLaterChunk : Prop :=
  (∀ y : List Byte, applyTweak 0 y = y) ∧
  (∀ (m : Nat) (y : List Byte), 1 ≤ m → 4096 * m < 2 ^ 31 → 16 ≤ y.length →
    tweakMask (4096 * m) ≠ List.replicate 16 0x00#8 ∧
    ∃ j, (j = 1 ∨ j = 2 ∨ j = 3) ∧ (applyTweak (4096 * m) y)[j]? ≠ y[j]? ∧
      (applyTweak (4096 * m) y)[j + 8]? ≠ y[j + 8]?)

/-- 42_cipher.md R156: both paths keep the length, for every admitted length. -/
def Obligations.TransformKeepsTheLength : Prop :=
  ∀ (k iv : Block) (b : List Byte), b.length ≤ 0x7FFFFFFF → b.length % 16 = 0 →
    (transformEnc k iv b).length = b.length ∧ (transformDec k iv b).length = b.length

/-- 42_cipher.md R147, R148: chunk m of the output is the tweaked cipher output of chunk m of the
input, with the original IV; the empty sequence gives the empty sequence. -/
def Obligations.TransformActsChunkByChunk : Prop :=
  ∀ k iv : Block,
    transformEnc k iv [] = [] ∧ transformDec k iv [] = [] ∧
    ∀ (b : List Byte) (m : Nat), b.length ≤ 0x7FFFFFFF → b.length % 16 = 0 →
      m < (b.length + 4095) / 4096 →
      ((transformEnc k iv b).drop (4096 * m)).take 4096 =
        applyTweak (4096 * m) (cbcEnc k iv ((b.drop (4096 * m)).take 4096)) ∧
      ((transformDec k iv b).drop (4096 * m)).take 4096 =
        applyTweak (4096 * m) (cbcDec k iv ((b.drop (4096 * m)).take 4096)) ∧
      (transformEnc k iv b).length = b.length ∧ (transformDec k iv b).length = b.length

/-- 42_cipher.md R152: up to one chunk the two paths undo each other and are plain CBC. -/
def Obligations.SingleChunkRoundTrip : Prop :=
  ∀ (k iv : Block) (b : List Byte), b.length ≤ 4096 → b.length % 16 = 0 →
    transformDec k iv (transformEnc k iv b) = b ∧ transformEnc k iv (transformDec k iv b) = b ∧
    transformEnc k iv b = cbcEnc k iv b ∧ transformDec k iv b = cbcDec k iv b

/-- 42_cipher.md section 7 (R153), 70_reset_and_hazards.md section 3 (R198): what DEC after ENC gives
on a later chunk, when its block 0 comes back, and that an input with two blocks in a later chunk never
does; and what ENC after DEC gives there, block by block, the error chained forward. -/
def Obligations.MultiChunkRoundTrip : Prop :=
  ∀ (k iv : Block) (b : List Byte) (m : Nat), b.length ≤ 0x7FFFFFFF → b.length % 16 = 0 →
    1 ≤ m → 4096 * m < b.length →
    let r := transformDec k iv (transformEnc k iv b)
    let t := Block.ofBytes (tweakMask (4096 * m))
    let c0 := aesEnc k ((Block.ofBytes (chunk b m)).xor iv)
    chunk r 0 = chunk b 0 ∧
    (chunk r m).take 16 = (((aesDec k (c0.xor t)).xor iv).xor t).toBytes ∧
    ((chunk r m).drop 16).take 16 =
      xorBytes (((chunk b m).drop 16).take 16) (tweakMask (4096 * m)) ∧
    (chunk r m).drop 32 = (chunk b m).drop 32 ∧
    ((chunk r m).take 16 = (chunk b m).take 16 ↔ (aesDec k (c0.xor t)).xor (aesDec k c0) = t) ∧
    (4096 * m + 32 ≤ b.length → r ≠ b) ∧
    let y := chunk b m
    let q := transformEnc k iv (transformDec k iv b)
    let d0 := aesEnc k ((aesDec k (Block.ofBytes y)).xor t)
    chunk q 0 = chunk b 0 ∧ (chunk q m).length = y.length ∧
    Block.ofBytes (chunk q m) = d0.xor t ∧
    ∀ i, 1 ≤ i → 16 * i < y.length →
      Block.ofBytes ((chunk q m).drop (16 * i)) =
        aesEnc k (((aesDec k (Block.ofBytes (y.drop (16 * i)))).xor
          (Block.ofBytes (y.drop (16 * (i - 1))))).xor
            (if i = 1 then d0 else Block.ofBytes ((chunk q m).drop (16 * (i - 1)))))

/-- 42_cipher.md section 7 (R154): both paths are injective on one admitted length, with the inverses
the rule writes out. -/
def Obligations.TransformsAreInjective : Prop :=
  ∀ (k iv : Block) (b : List Byte), b.length ≤ 0x7FFFFFFF → b.length % 16 = 0 →
    ((List.range (nChunks b.length)).flatMap fun m =>
      cbcDec k iv (applyTweak (4096 * m) (chunk (transformEnc k iv b) m))) = b ∧
    ((List.range (nChunks b.length)).flatMap fun m =>
      cbcEnc k iv (applyTweak (4096 * m) (chunk (transformDec k iv b) m))) = b ∧
    (∀ b' : List Byte, b'.length = b.length → transformEnc k iv b' = transformEnc k iv b → b' = b) ∧
    (∀ b' : List Byte, b'.length = b.length → transformDec k iv b' = transformDec k iv b → b' = b)

/-! ### Packing and host programs -/

/-- 10_state.md section 2 (R25, R26), 30_encoding.md section 6 (R81): which bits each key and IV byte
is, that the AES blocks hold these bytes in order, and that the lines the pseudo-instructions `key` and
`iv` expand to, performed, load them and change nothing else. The queue is the model's (assumption 5). -/
def Obligations.KeyAndIvPacking : Prop :=
  (∀ (s : State) (j : Nat), j < 16 →
    s.keyBlock.toBytes.getD j 0#8 =
      (([s.key0, s.key1, s.key2, s.key3].getD (j / 4) 0#32) >>> (8 * (j % 4))).setWidth 8 ∧
    s.ivBlock.toBytes.getD j 0#8 =
      (([s.iv0, s.iv1, s.iv2, s.iv3].getD (j / 4) 0#32) >>> (8 * (j % 4))).setWidth 8) ∧
  (∀ (s : State) (b : Block),
    ((((s.writeReg .key0 (unle32 b.c0.toBytes)).writeReg .key1 (unle32 b.c1.toBytes)).writeReg
      .key2 (unle32 b.c2.toBytes)).writeReg .key3 (unle32 b.c3.toBytes)).keyBlock = b ∧
    ((((s.writeReg .iv0 (unle32 b.c0.toBytes)).writeReg .iv1 (unle32 b.c1.toBytes)).writeReg
      .iv2 (unle32 b.c2.toBytes)).writeReg .iv3 (unle32 b.c3.toBytes)).ivBlock = b) ∧
  (∀ b : Block,
    expand (.key b) =
      [.wr .key0 (unle32 (b.toBytes.take 4)), .wr .key1 (unle32 ((b.toBytes.drop 4).take 4)),
       .wr .key2 (unle32 ((b.toBytes.drop 8).take 4)),
       .wr .key3 (unle32 ((b.toBytes.drop 12).take 4))] ∧
    expand (.iv b) =
      [.wr .iv0 (unle32 (b.toBytes.take 4)), .wr .iv1 (unle32 ((b.toBytes.drop 4).take 4)),
       .wr .iv2 (unle32 ((b.toBytes.drop 8).take 4)),
       .wr .iv3 (unle32 ((b.toBytes.drop 12).take 4))]) ∧
  (∀ (s : State) (b : Block) (rest : List Action),
    s.pending = encodeProgram s.platform (expand (.key b)) ++ rest →
      ∃ t : State, stepsTo 4 s t ∧ t.keyBlock = b ∧
        (∀ r : Reg, r ≠ .key0 → r ≠ .key1 → r ≠ .key2 → r ≠ .key3 → t.readReg r = s.readReg r) ∧
        t.mem = s.mem ∧ t.platform = s.platform ∧ t.pending = rest ∧ t.seen = s.seen) ∧
  (∀ (s : State) (b : Block) (rest : List Action),
    s.pending = encodeProgram s.platform (expand (.iv b)) ++ rest →
      ∃ t : State, stepsTo 4 s t ∧ t.ivBlock = b ∧
        (∀ r : Reg, r ≠ .iv0 → r ≠ .iv1 → r ≠ .iv2 → r ≠ .iv3 → t.readReg r = s.readReg r) ∧
        t.mem = s.mem ∧ t.platform = s.platform ∧ t.pending = rest ∧ t.seen = s.seen)

/-- 30_encoding.md section 6 (R81, R82): the bus transactions of host lines determine the lines; those
of the pseudo-instructions `crc32`, `crcstamp`, `enc` and `dec` are R82's `W off value`, and performing
them sets the operands and runs the command; the order of operand writes does not matter. The queue is
the model's (assumption 5). -/
def Obligations.HostLinesAreTheirTransactions : Prop :=
  (∀ (p : Platform) (ls : List HostLine),
    (encodeProgram p ls).map (decodeLine p) = ls.map some) ∧
  (∀ (p : Platform) (src dst len : Word),
    encodeProgram p (expand (.crc32 src len)) =
      [.regWrite (p.regBase + 0x08) .word src, .regWrite (p.regBase + 0x10) .word len,
       .regWrite (p.regBase + 0x00) .word 0x00000001#32] ∧
    encodeProgram p (expand (.crcstamp src len)) =
      [.regWrite (p.regBase + 0x08) .word src, .regWrite (p.regBase + 0x10) .word len,
       .regWrite (p.regBase + 0x00) .word 0x00000002#32] ∧
    encodeProgram p (expand (.enc src dst len)) =
      [.regWrite (p.regBase + 0x08) .word src, .regWrite (p.regBase + 0x0C) .word dst,
       .regWrite (p.regBase + 0x10) .word len, .regWrite (p.regBase + 0x00) .word 0x00000010#32] ∧
    encodeProgram p (expand (.dec src dst len)) =
      [.regWrite (p.regBase + 0x08) .word src, .regWrite (p.regBase + 0x0C) .word dst,
       .regWrite (p.regBase + 0x10) .word len, .regWrite (p.regBase + 0x00) .word 0x00000011#32]) ∧
  (∀ (s : State) (src len : Word) (rest : List Action),
    (s.pending = encodeProgram s.platform (expand (.crc32 src len)) ++ rest →
      ∃ t : State, exec .crc32 { s with src := src, len := len, pending := rest } = .next t ∧
        stepsTo 3 s t) ∧
    (s.pending = encodeProgram s.platform (expand (.crcstamp src len)) ++ rest →
      ∃ t : State, exec .crcstamp { s with src := src, len := len, pending := rest } = .next t ∧
        stepsTo 3 s t)) ∧
  (∀ (s : State) (src dst len : Word) (rest : List Action),
    (s.pending = encodeProgram s.platform (expand (.enc src dst len)) ++ rest →
      ∃ t : State,
        exec .enc { s with src := src, dst := dst, len := len, pending := rest } = .next t ∧
          stepsTo 4 s t) ∧
    (s.pending = encodeProgram s.platform (expand (.dec src dst len)) ++ rest →
      ∃ t : State,
        exec .dec { s with src := src, dst := dst, len := len, pending := rest } = .next t ∧
          stepsTo 4 s t)) ∧
  (∀ (s : State) (r q : Reg) (v w : Word), r ≠ q →
    (s.writeReg r v).writeReg q w = (s.writeReg q w).writeReg r v)
end

