-- ==== Sys2Proof/Laws/Bytes.lean ====
section
/-! SUPPORT. Byte order, blocks and lengths: packing and unpacking are inverse, blocks and byte sequences agree, and how long each result is (00_scope.md R12; 41_aes.md R113; 42_cipher.md R142 to R145). -/

namespace Sys2Proof.Machine

/-! ### Little-endian packing (00_scope.md R12) -/

@[simp] theorem length_le32 (v : Word) : (le32 v).length = 4 := by simp [le32]

@[simp] theorem length_le64 (v : DWord) : (le64 v).length = 8 := by simp [le64]

/-- `unle32` undoes `le32` (00_scope.md R12). -/
@[simp] theorem unle32_le32 (v : Word) : unle32 (le32 v) = v := by
  apply BitVec.eq_of_getLsbD_eq
  intro i hi
  simp only [unle32, le32, BitVec.getLsbD_or, BitVec.getLsbD_setWidth, BitVec.getLsbD_shiftLeft,
    BitVec.getLsbD_extractLsb']
  interval_cases i <;> simp

/-- `unle64` undoes `le64` (00_scope.md R12). -/
@[simp] theorem unle64_le64 (v : DWord) : unle64 (le64 v) = v := by
  apply BitVec.eq_of_getLsbD_eq
  intro i hi
  simp only [unle64, le64, BitVec.getLsbD_or, BitVec.getLsbD_setWidth, BitVec.getLsbD_shiftLeft,
    BitVec.getLsbD_extractLsb']
  interval_cases i <;> simp

/-- `le32` undoes `unle32` on four bytes (00_scope.md R12). -/
theorem le32_unle32 (b0 b1 b2 b3 : Byte) :
    le32 (unle32 [b0, b1, b2, b3]) = [b0, b1, b2, b3] := by
  simp only [unle32, le32, List.cons.injEq, and_true]
  refine ⟨?_, ?_, ?_, ?_⟩ <;> apply BitVec.eq_of_getLsbD_eq <;> intro i hi <;>
    simp only [BitVec.getLsbD_or, BitVec.getLsbD_setWidth, BitVec.getLsbD_shiftLeft,
      BitVec.getLsbD_extractLsb'] <;> interval_cases i <;> simp

/-! ### Blocks and byte sequences (41_aes.md R113) -/

@[simp] theorem Col.length_toBytes (w : Col) : w.toBytes.length = 4 := by
  simp [Col.toBytes]

@[simp] theorem Block.length_toBytes (x : Block) : x.toBytes.length = 16 := by
  simp [Block.toBytes]

/-- A block is determined by its bytes. -/
@[simp] theorem Block.ofBytes_toBytes (x : Block) : Block.ofBytes x.toBytes = x := rfl

/-- Only the first 16 bytes of a sequence count, whatever follows. -/
@[simp] theorem Block.ofBytes_toBytes_append (x : Block) (bs : List Byte) :
    Block.ofBytes (x.toBytes ++ bs) = x := rfl

/-- Sixteen bytes are determined by their block. -/
theorem Block.toBytes_ofBytes {bs : List Byte} (h : bs.length = 16) :
    (Block.ofBytes bs).toBytes = bs := by
  apply List.ext_getElem (by simp [h])
  intro i h1 h2
  have : i < 16 := by simpa using h1
  interval_cases i <;>
    simp [Block.toBytes, Col.toBytes, Block.ofBytes, Col.ofBytes, h]

/-- The block of the first 16 bytes. -/
theorem Block.ofBytes_take (bs : List Byte) : Block.ofBytes (bs.take 16) = Block.ofBytes bs := by
  simp [Block.ofBytes, Col.ofBytes]

/-! ### XOR -/

/-- XOR of words cancels. -/
@[simp] theorem Col.xor_xor_cancel (x y : Col) : (x.xor y).xor y = x := by
  simp [Col.xor]

/-- XOR of blocks cancels; so `AddRoundKey` is its own inverse (41_aes.md R119). -/
@[simp] theorem Block.xor_xor_cancel (x y : Block) : (x.xor y).xor y = x := by
  simp [Block.xor]

/-- XOR of blocks is commutative. -/
theorem Block.xor_comm (x y : Block) : x.xor y = y.xor x := by
  simp [Block.xor, Col.xor, BitVec.xor_comm]

/-- XOR of blocks is associative. -/
theorem Block.xor_assoc (x y z : Block) : (x.xor y).xor z = x.xor (y.xor z) := by
  simp [Block.xor, Col.xor, BitVec.xor_assoc]

@[simp] theorem length_xorBytes (a b : List Byte) :
    (xorBytes a b).length = min a.length b.length := by
  simp [xorBytes]

/-- XOR of blocks is XOR of their bytes. -/
theorem Block.toBytes_xor (x y : Block) : (x.xor y).toBytes = xorBytes x.toBytes y.toBytes := rfl

/-! ### Lengths (42_cipher.md R142 to R145) -/

@[simp] theorem length_blocksOf (n : Nat) (x : List Byte) : (blocksOf n x).length = n := by
  induction n generalizing x with
  | zero => rfl
  | succ n ih => simp [blocksOf, ih]

@[simp] theorem length_bytesOf (ys : List Block) : (bytesOf ys).length = 16 * ys.length := by
  induction ys with
  | nil => rfl
  | cons y ys ih => simp_all [bytesOf]; omega

@[simp] theorem length_cbcEncBlocks (k prev : Block) (xs : List Block) :
    (cbcEncBlocks k prev xs).length = xs.length := by
  induction xs generalizing prev with
  | nil => rfl
  | cons x xs ih => simp [cbcEncBlocks, ih]

@[simp] theorem length_cbcDecBlocks (k prev : Block) (ys : List Block) :
    (cbcDecBlocks k prev ys).length = ys.length := by
  induction ys generalizing prev with
  | nil => rfl
  | cons y ys ih => simp [cbcDecBlocks, ih]

/-- CBC over whole blocks keeps the length (R142). -/
theorem length_cbcEnc (k iv : Block) (x : List Byte) :
    (cbcEnc k iv x).length = 16 * (x.length / 16) := by
  simp [cbcEnc, Config.blockBytes]

/-- CBC over whole blocks keeps the length (R143). -/
theorem length_cbcDec (k iv : Block) (y : List Byte) :
    (cbcDec k iv y).length = 16 * (y.length / 16) := by
  simp [cbcDec, Config.blockBytes]

@[simp] theorem length_tweakMask (off : Nat) : (tweakMask off).length = 16 := by
  simp [tweakMask]

/-- The tweak keeps the length (R145). -/
@[simp] theorem length_applyTweak (off : Nat) (y : List Byte) :
    (applyTweak off y).length = y.length := by
  simp [applyTweak, Config.blockBytes]; omega

/-- Cutting the bytes of blocks into blocks gives the blocks back. -/
@[simp] theorem blocksOf_bytesOf (ys : List Block) : blocksOf ys.length (bytesOf ys) = ys := by
  induction ys with
  | nil => rfl
  | cons y ys ih =>
    simp only [List.length_cons, blocksOf, bytesOf, List.flatMap_cons, List.cons.injEq]
    exact ⟨rfl, ih⟩

/-- The bytes of the blocks of a sequence of whole blocks are the sequence. -/
theorem bytesOf_blocksOf (n : Nat) {x : List Byte} (h : x.length = 16 * n) :
    bytesOf (blocksOf n x) = x := by
  induction n generalizing x with
  | zero => simp_all [blocksOf, bytesOf]
  | succ n ih =>
    have h16 : (x.take 16).length = 16 := by simp; omega
    simp only [blocksOf, bytesOf, List.flatMap_cons, Config.blockBytes]
    rw [← Block.ofBytes_take, Block.toBytes_ofBytes h16]
    have := ih (x := x.drop 16) (by simp; omega)
    rw [bytesOf] at this
    rw [this, List.take_append_drop]

end Sys2Proof.Machine
end

