-- ==== Sys2Proof/Laws/State.lean ====
section
/-! SUPPORT. What each named update of the state leaves in each field; what reads see of register writes. -/

namespace Sys2Proof.Machine

/-! ### State.withStatus -/

@[simp] theorem State.withStatus_src (s : State) (v : Word) :
    (s.withStatus v).src = s.src := rfl
@[simp] theorem State.withStatus_dst (s : State) (v : Word) :
    (s.withStatus v).dst = s.dst := rfl
@[simp] theorem State.withStatus_len (s : State) (v : Word) :
    (s.withStatus v).len = s.len := rfl
@[simp] theorem State.withStatus_result (s : State) (v : Word) :
    (s.withStatus v).result = s.result := rfl
@[simp] theorem State.withStatus_status (s : State) (v : Word) :
    (s.withStatus v).status = v := rfl
@[simp] theorem State.withStatus_key0 (s : State) (v : Word) :
    (s.withStatus v).key0 = s.key0 := rfl
@[simp] theorem State.withStatus_key1 (s : State) (v : Word) :
    (s.withStatus v).key1 = s.key1 := rfl
@[simp] theorem State.withStatus_key2 (s : State) (v : Word) :
    (s.withStatus v).key2 = s.key2 := rfl
@[simp] theorem State.withStatus_key3 (s : State) (v : Word) :
    (s.withStatus v).key3 = s.key3 := rfl
@[simp] theorem State.withStatus_iv0 (s : State) (v : Word) :
    (s.withStatus v).iv0 = s.iv0 := rfl
@[simp] theorem State.withStatus_iv1 (s : State) (v : Word) :
    (s.withStatus v).iv1 = s.iv1 := rfl
@[simp] theorem State.withStatus_iv2 (s : State) (v : Word) :
    (s.withStatus v).iv2 = s.iv2 := rfl
@[simp] theorem State.withStatus_iv3 (s : State) (v : Word) :
    (s.withStatus v).iv3 = s.iv3 := rfl
@[simp] theorem State.withStatus_mem (s : State) (v : Word) :
    (s.withStatus v).mem = s.mem := rfl
@[simp] theorem State.withStatus_platform (s : State) (v : Word) :
    (s.withStatus v).platform = s.platform := rfl
@[simp] theorem State.withStatus_pending (s : State) (v : Word) :
    (s.withStatus v).pending = s.pending := rfl
@[simp] theorem State.withStatus_seen (s : State) (v : Word) :
    (s.withStatus v).seen = s.seen := rfl

/-! ### State.withResult -/

@[simp] theorem State.withResult_src (s : State) (v : Word) :
    (s.withResult v).src = s.src := rfl
@[simp] theorem State.withResult_dst (s : State) (v : Word) :
    (s.withResult v).dst = s.dst := rfl
@[simp] theorem State.withResult_len (s : State) (v : Word) :
    (s.withResult v).len = s.len := rfl
@[simp] theorem State.withResult_result (s : State) (v : Word) :
    (s.withResult v).result = v := rfl
@[simp] theorem State.withResult_status (s : State) (v : Word) :
    (s.withResult v).status = s.status := rfl
@[simp] theorem State.withResult_key0 (s : State) (v : Word) :
    (s.withResult v).key0 = s.key0 := rfl
@[simp] theorem State.withResult_key1 (s : State) (v : Word) :
    (s.withResult v).key1 = s.key1 := rfl
@[simp] theorem State.withResult_key2 (s : State) (v : Word) :
    (s.withResult v).key2 = s.key2 := rfl
@[simp] theorem State.withResult_key3 (s : State) (v : Word) :
    (s.withResult v).key3 = s.key3 := rfl
@[simp] theorem State.withResult_iv0 (s : State) (v : Word) :
    (s.withResult v).iv0 = s.iv0 := rfl
@[simp] theorem State.withResult_iv1 (s : State) (v : Word) :
    (s.withResult v).iv1 = s.iv1 := rfl
@[simp] theorem State.withResult_iv2 (s : State) (v : Word) :
    (s.withResult v).iv2 = s.iv2 := rfl
@[simp] theorem State.withResult_iv3 (s : State) (v : Word) :
    (s.withResult v).iv3 = s.iv3 := rfl
@[simp] theorem State.withResult_mem (s : State) (v : Word) :
    (s.withResult v).mem = s.mem := rfl
@[simp] theorem State.withResult_platform (s : State) (v : Word) :
    (s.withResult v).platform = s.platform := rfl
@[simp] theorem State.withResult_pending (s : State) (v : Word) :
    (s.withResult v).pending = s.pending := rfl
@[simp] theorem State.withResult_seen (s : State) (v : Word) :
    (s.withResult v).seen = s.seen := rfl

/-! ### State.withMem -/

@[simp] theorem State.withMem_src (s : State) (m : Memory) :
    (s.withMem m).src = s.src := rfl
@[simp] theorem State.withMem_dst (s : State) (m : Memory) :
    (s.withMem m).dst = s.dst := rfl
@[simp] theorem State.withMem_len (s : State) (m : Memory) :
    (s.withMem m).len = s.len := rfl
@[simp] theorem State.withMem_result (s : State) (m : Memory) :
    (s.withMem m).result = s.result := rfl
@[simp] theorem State.withMem_status (s : State) (m : Memory) :
    (s.withMem m).status = s.status := rfl
@[simp] theorem State.withMem_key0 (s : State) (m : Memory) :
    (s.withMem m).key0 = s.key0 := rfl
@[simp] theorem State.withMem_key1 (s : State) (m : Memory) :
    (s.withMem m).key1 = s.key1 := rfl
@[simp] theorem State.withMem_key2 (s : State) (m : Memory) :
    (s.withMem m).key2 = s.key2 := rfl
@[simp] theorem State.withMem_key3 (s : State) (m : Memory) :
    (s.withMem m).key3 = s.key3 := rfl
@[simp] theorem State.withMem_iv0 (s : State) (m : Memory) :
    (s.withMem m).iv0 = s.iv0 := rfl
@[simp] theorem State.withMem_iv1 (s : State) (m : Memory) :
    (s.withMem m).iv1 = s.iv1 := rfl
@[simp] theorem State.withMem_iv2 (s : State) (m : Memory) :
    (s.withMem m).iv2 = s.iv2 := rfl
@[simp] theorem State.withMem_iv3 (s : State) (m : Memory) :
    (s.withMem m).iv3 = s.iv3 := rfl
@[simp] theorem State.withMem_mem (s : State) (m : Memory) :
    (s.withMem m).mem = m := rfl
@[simp] theorem State.withMem_platform (s : State) (m : Memory) :
    (s.withMem m).platform = s.platform := rfl
@[simp] theorem State.withMem_pending (s : State) (m : Memory) :
    (s.withMem m).pending = s.pending := rfl
@[simp] theorem State.withMem_seen (s : State) (m : Memory) :
    (s.withMem m).seen = s.seen := rfl

/-! ### State.withPending -/

@[simp] theorem State.withPending_src (s : State) (q : List Action) :
    (s.withPending q).src = s.src := rfl
@[simp] theorem State.withPending_dst (s : State) (q : List Action) :
    (s.withPending q).dst = s.dst := rfl
@[simp] theorem State.withPending_len (s : State) (q : List Action) :
    (s.withPending q).len = s.len := rfl
@[simp] theorem State.withPending_result (s : State) (q : List Action) :
    (s.withPending q).result = s.result := rfl
@[simp] theorem State.withPending_status (s : State) (q : List Action) :
    (s.withPending q).status = s.status := rfl
@[simp] theorem State.withPending_key0 (s : State) (q : List Action) :
    (s.withPending q).key0 = s.key0 := rfl
@[simp] theorem State.withPending_key1 (s : State) (q : List Action) :
    (s.withPending q).key1 = s.key1 := rfl
@[simp] theorem State.withPending_key2 (s : State) (q : List Action) :
    (s.withPending q).key2 = s.key2 := rfl
@[simp] theorem State.withPending_key3 (s : State) (q : List Action) :
    (s.withPending q).key3 = s.key3 := rfl
@[simp] theorem State.withPending_iv0 (s : State) (q : List Action) :
    (s.withPending q).iv0 = s.iv0 := rfl
@[simp] theorem State.withPending_iv1 (s : State) (q : List Action) :
    (s.withPending q).iv1 = s.iv1 := rfl
@[simp] theorem State.withPending_iv2 (s : State) (q : List Action) :
    (s.withPending q).iv2 = s.iv2 := rfl
@[simp] theorem State.withPending_iv3 (s : State) (q : List Action) :
    (s.withPending q).iv3 = s.iv3 := rfl
@[simp] theorem State.withPending_mem (s : State) (q : List Action) :
    (s.withPending q).mem = s.mem := rfl
@[simp] theorem State.withPending_platform (s : State) (q : List Action) :
    (s.withPending q).platform = s.platform := rfl
@[simp] theorem State.withPending_pending (s : State) (q : List Action) :
    (s.withPending q).pending = q := rfl
@[simp] theorem State.withPending_seen (s : State) (q : List Action) :
    (s.withPending q).seen = s.seen := rfl

/-! ### State.record -/

@[simp] theorem State.record_src (s : State) (r : Reading) :
    (s.record r).src = s.src := rfl
@[simp] theorem State.record_dst (s : State) (r : Reading) :
    (s.record r).dst = s.dst := rfl
@[simp] theorem State.record_len (s : State) (r : Reading) :
    (s.record r).len = s.len := rfl
@[simp] theorem State.record_result (s : State) (r : Reading) :
    (s.record r).result = s.result := rfl
@[simp] theorem State.record_status (s : State) (r : Reading) :
    (s.record r).status = s.status := rfl
@[simp] theorem State.record_key0 (s : State) (r : Reading) :
    (s.record r).key0 = s.key0 := rfl
@[simp] theorem State.record_key1 (s : State) (r : Reading) :
    (s.record r).key1 = s.key1 := rfl
@[simp] theorem State.record_key2 (s : State) (r : Reading) :
    (s.record r).key2 = s.key2 := rfl
@[simp] theorem State.record_key3 (s : State) (r : Reading) :
    (s.record r).key3 = s.key3 := rfl
@[simp] theorem State.record_iv0 (s : State) (r : Reading) :
    (s.record r).iv0 = s.iv0 := rfl
@[simp] theorem State.record_iv1 (s : State) (r : Reading) :
    (s.record r).iv1 = s.iv1 := rfl
@[simp] theorem State.record_iv2 (s : State) (r : Reading) :
    (s.record r).iv2 = s.iv2 := rfl
@[simp] theorem State.record_iv3 (s : State) (r : Reading) :
    (s.record r).iv3 = s.iv3 := rfl
@[simp] theorem State.record_mem (s : State) (r : Reading) :
    (s.record r).mem = s.mem := rfl
@[simp] theorem State.record_platform (s : State) (r : Reading) :
    (s.record r).platform = s.platform := rfl
@[simp] theorem State.record_pending (s : State) (r : Reading) :
    (s.record r).pending = s.pending := rfl
@[simp] theorem State.record_seen (s : State) (r : Reading) :
    (s.record r).seen = r :: s.seen := rfl

/-! ### State.raise -/

@[simp] theorem State.raise_src (s : State) (e : ErrorCode) :
    (s.raise e).src = s.src := rfl
@[simp] theorem State.raise_dst (s : State) (e : ErrorCode) :
    (s.raise e).dst = s.dst := rfl
@[simp] theorem State.raise_len (s : State) (e : ErrorCode) :
    (s.raise e).len = s.len := rfl
@[simp] theorem State.raise_result (s : State) (e : ErrorCode) :
    (s.raise e).result = s.result := rfl
@[simp] theorem State.raise_status (s : State) (e : ErrorCode) :
    (s.raise e).status = statusError e := rfl
@[simp] theorem State.raise_key0 (s : State) (e : ErrorCode) :
    (s.raise e).key0 = s.key0 := rfl
@[simp] theorem State.raise_key1 (s : State) (e : ErrorCode) :
    (s.raise e).key1 = s.key1 := rfl
@[simp] theorem State.raise_key2 (s : State) (e : ErrorCode) :
    (s.raise e).key2 = s.key2 := rfl
@[simp] theorem State.raise_key3 (s : State) (e : ErrorCode) :
    (s.raise e).key3 = s.key3 := rfl
@[simp] theorem State.raise_iv0 (s : State) (e : ErrorCode) :
    (s.raise e).iv0 = s.iv0 := rfl
@[simp] theorem State.raise_iv1 (s : State) (e : ErrorCode) :
    (s.raise e).iv1 = s.iv1 := rfl
@[simp] theorem State.raise_iv2 (s : State) (e : ErrorCode) :
    (s.raise e).iv2 = s.iv2 := rfl
@[simp] theorem State.raise_iv3 (s : State) (e : ErrorCode) :
    (s.raise e).iv3 = s.iv3 := rfl
@[simp] theorem State.raise_mem (s : State) (e : ErrorCode) :
    (s.raise e).mem = s.mem := rfl
@[simp] theorem State.raise_platform (s : State) (e : ErrorCode) :
    (s.raise e).platform = s.platform := rfl
@[simp] theorem State.raise_pending (s : State) (e : ErrorCode) :
    (s.raise e).pending = s.pending := rfl
@[simp] theorem State.raise_seen (s : State) (e : ErrorCode) :
    (s.raise e).seen = s.seen := rfl

/-! ### State.resetEvent -/

@[simp] theorem State.resetEvent_src (s : State) : s.resetEvent.src = 0#32 := rfl
@[simp] theorem State.resetEvent_dst (s : State) : s.resetEvent.dst = 0#32 := rfl
@[simp] theorem State.resetEvent_len (s : State) : s.resetEvent.len = 0#32 := rfl
@[simp] theorem State.resetEvent_result (s : State) : s.resetEvent.result = 0#32 := rfl
@[simp] theorem State.resetEvent_status (s : State) : s.resetEvent.status = 0#32 := rfl
@[simp] theorem State.resetEvent_key0 (s : State) : s.resetEvent.key0 = 0#32 := rfl
@[simp] theorem State.resetEvent_key1 (s : State) : s.resetEvent.key1 = 0#32 := rfl
@[simp] theorem State.resetEvent_key2 (s : State) : s.resetEvent.key2 = 0#32 := rfl
@[simp] theorem State.resetEvent_key3 (s : State) : s.resetEvent.key3 = 0#32 := rfl
@[simp] theorem State.resetEvent_iv0 (s : State) : s.resetEvent.iv0 = 0#32 := rfl
@[simp] theorem State.resetEvent_iv1 (s : State) : s.resetEvent.iv1 = 0#32 := rfl
@[simp] theorem State.resetEvent_iv2 (s : State) : s.resetEvent.iv2 = 0#32 := rfl
@[simp] theorem State.resetEvent_iv3 (s : State) : s.resetEvent.iv3 = 0#32 := rfl
@[simp] theorem State.resetEvent_mem (s : State) : s.resetEvent.mem = s.mem := rfl
@[simp] theorem State.resetEvent_platform (s : State) : s.resetEvent.platform = s.platform := rfl
@[simp] theorem State.resetEvent_pending (s : State) : s.resetEvent.pending = s.pending := rfl
@[simp] theorem State.resetEvent_seen (s : State) : s.resetEvent.seen = s.seen := rfl

/-! ### The register file -/

@[simp] theorem State.writeReg_mem (s : State) (r : Reg) (v : Word) :
    (s.writeReg r v).mem = s.mem := by cases r <;> rfl
@[simp] theorem State.writeReg_platform (s : State) (r : Reg) (v : Word) :
    (s.writeReg r v).platform = s.platform := by cases r <;> rfl
@[simp] theorem State.writeReg_pending (s : State) (r : Reg) (v : Word) :
    (s.writeReg r v).pending = s.pending := by cases r <;> rfl
@[simp] theorem State.writeReg_seen (s : State) (r : Reg) (v : Word) :
    (s.writeReg r v).seen = s.seen := by cases r <;> rfl
@[simp] theorem State.writeReg_status (s : State) (r : Reg) (v : Word) :
    (s.writeReg r v).status = s.status := by cases r <;> rfl
@[simp] theorem State.writeReg_result (s : State) (r : Reg) (v : Word) :
    (s.writeReg r v).result = s.result := by cases r <;> rfl

/-- A register that a host write stores into: the eleven operand registers (10_state.md R21). -/
theorem State.readReg_writeReg_same (s : State) (r : Reg) (v : Word)
    (h : r ≠ .cmd ∧ r ≠ .status ∧ r ≠ .result) : (s.writeReg r v).readReg r = v := by
  cases r <;> first | rfl | simp_all

/-- A host write of one register leaves every other register alone. -/
theorem State.readReg_writeReg_other (s : State) (r q : Reg) (v : Word) (h : q ≠ r) :
    (s.writeReg r v).readReg q = s.readReg q := by
  cases r <;> cases q <;> first | rfl | exact absurd rfl h

/-- Host writes of CMD's storage, STATUS and RESULT store nothing (10_state.md R27 to R29). -/
theorem State.writeReg_ignored (s : State) (r : Reg) (v : Word)
    (h : r = .cmd ∨ r = .status ∨ r = .result) : s.writeReg r v = s := by
  rcases h with rfl | rfl | rfl <;> rfl

/-- Reset reads 0 in every register (10_state.md R37). -/
theorem State.readReg_resetEvent (s : State) (r : Reg) : s.resetEvent.readReg r = 0#32 := by
  cases r <;> rfl

/-- Raising an error is visible in STATUS only (60_exceptions.md R176). -/
theorem State.readReg_raise (s : State) (e : ErrorCode) (r : Reg) (h : r ≠ .status) :
    (s.raise e).readReg r = s.readReg r := by
  cases r <;> first | rfl | exact absurd rfl h

/-- The queue put back as it was is the same state. -/
@[simp] theorem State.withPending_self (s : State) : s.withPending s.pending = s := rfl

/-- Only the last replacement of the queue counts. -/
@[simp] theorem State.withPending_withPending (s : State) (q q' : List Action) :
    (s.withPending q).withPending q' = s.withPending q' := rfl

end Sys2Proof.Machine
end

