-- ==== Sys2Proof/Laws/Step.lean ====
section
/-! SUPPORT. What a command, an action and a step can do, said once (60_exceptions.md R175, R176; 10_state.md R36; 20_memory.md R63). -/

namespace Sys2Proof.Machine

/-- The lengths CRC32 accepts (60_exceptions.md R173). -/
theorem crc32LenOk_iff (n : Nat) : crc32LenOk n = true ↔ n ≤ 0x7FFFFFFF := by
  simp only [crc32LenOk, decide_eq_true_eq, Config.maxLen]

/-- The lengths CRCSTAMP accepts (60_exceptions.md R173). -/
theorem crcstampLenOk_iff (n : Nat) : crcstampLenOk n = true ↔ n ≤ 0x7FFFFFFF ∧ 4 ≤ n := by
  simp only [crcstampLenOk, Bool.and_eq_true, decide_eq_true_eq, Config.maxLen, Config.crcFieldBytes]

/-- The lengths ENC and DEC accept (60_exceptions.md R173, 92_eei_decisions.md D16). -/
theorem cipherLenOk_iff (p : Platform) (n : Nat) :
    cipherLenOk p n = true ↔
      (n ≤ 0x7FFFFFFF ∧ n % 16 = 0) ∧ (p.multiChunk = .computeAndFlag ∨ n ≤ 4096) := by
  simp only [cipherLenOk, Bool.and_eq_true, Bool.or_eq_true, decide_eq_true_eq, Config.maxLen,
    Config.blockBytes, Config.chunkBytes]

/-- A command whose checks pass has its effect. -/
theorem State.command_ok {s : State} {l a : Bool} {f : State → State} (hl : l = true)
    (ha : a = true) : s.command l a f = .next (f s) := by
  simp [State.command, hl, ha]

/-- What a legal command can do: BAD_LEN, else BUS, else its effect (60_exceptions.md R175). -/
theorem State.command_cases {s t : State} {l a : Bool} {f : State → State}
    (h : s.command l a f = .next t) :
    (l = false ∧ t = s.raise .badLen) ∨ (l = true ∧ a = false ∧ t = s.raise .bus) ∨
      (l = true ∧ a = true ∧ t = f s) := by
  cases l <;> cases a <;> simp_all [State.command, eq_comm]

/-- What a command leaves: an error visible in STATUS only, or its own effect (R176). -/
theorem exec_cases {i : Instr} {s t : State} (h : exec i s = .next t) :
    t = s.raise .badLen ∨ t = s.raise .bus ∨
      (match i with
        | .crc32 => t = s.crc32Effect
        | .crcstamp => t = s.crcstampEffect
        | .enc => t = s.cipherEffect transformEnc
        | .dec => t = s.cipherEffect transformDec) := by
  cases i <;>
    (rcases State.command_cases h with ⟨-, h⟩ | ⟨-, -, h⟩ | ⟨-, -, h⟩ <;> simp_all)

/-- What a CMD write can do: a decoded command, or ILLEGAL_CMD (30_encoding.md R73). -/
theorem State.writeCommand_cases {s t : State} {v : Word} (h : s.writeCommand v = .next t) :
    (∃ i, decode v = .ok i ∧ exec i s = .next t) ∨
      (∃ e, decode v = .error e ∧ t = s.raise .illegalCmd) := by
  simp only [State.writeCommand] at h
  split at h
  · exact .inl ⟨_, ‹_›, h⟩
  · cases h; exact .inr ⟨_, ‹_›, rfl⟩

/-- What one action can do when it answers a next state. -/
theorem State.perform_cases {s t : State} {a : Action} (h : s.perform a = .next t) :
    (∃ addr v, a = .regWrite addr .word v ∧ s.accessReg addr .word = .ok .cmd ∧
        s.writeCommand v = .next t) ∨
    (∃ addr v r, a = .regWrite addr .word v ∧ s.accessReg addr .word = .ok r ∧ r ≠ .cmd ∧
        t = s.writeReg r v) ∨
    (∃ addr r, a = .regRead addr .word ∧ s.accessReg addr .word = .ok r ∧
        t = s.record (.reg (s.readReg r))) ∨
    (∃ addr bs, a = .store addr bs ∧ s.hostMay addr.toNat bs.length = true ∧
        t = s.withMem (Memory.write s.mem addr.toNat bs)) ∨
    (∃ addr n, a = .load addr n ∧ s.hostMay addr.toNat n = true ∧
        t = s.record (.bytes (Memory.read s.mem addr.toNat n))) ∨
    (a = .reset ∧ t = s.resetEvent) := by
  have hword : ∀ {addr w r}, s.accessReg addr w = .ok r → w = .word := by
    intro addr w r hr
    by_contra hw
    simp [State.accessReg, hw] at hr
  cases a with
  | regWrite addr w v =>
    simp only [State.perform, State.hostWrite] at h
    split at h
    · cases h
    · cases hword ‹_›; exact .inl ⟨addr, v, rfl, ‹_›, h⟩
    · cases hword ‹_›; cases h
      exact .inr (.inl ⟨addr, v, _, rfl, ‹_›, ‹_›, rfl⟩)
  | regRead addr w =>
    simp only [State.perform, State.hostRead] at h
    split at h
    · cases h
    · cases hword ‹_›; cases h
      exact .inr (.inr (.inl ⟨addr, _, rfl, ‹_›, rfl⟩))
  | store addr bs =>
    simp only [State.perform, State.hostStore] at h
    split at h
    · cases h; exact .inr (.inr (.inr (.inl ⟨addr, bs, rfl, ‹_›, rfl⟩)))
    · cases h
  | load addr n =>
    simp only [State.perform, State.hostLoad] at h
    split at h
    · cases h; exact .inr (.inr (.inr (.inr (.inl ⟨addr, n, rfl, ‹_›, rfl⟩))))
    · cases h
  | reset =>
    simp only [State.perform] at h
    cases h; exact .inr (.inr (.inr (.inr (.inr ⟨rfl, rfl⟩))))

/-- What a step can do: nothing when nothing is pending, else the oldest action (20_memory.md R63). -/
theorem step_cases {s t : State} (h : step s = .next t) :
    (s.pending = [] ∧ t = s) ∨
      (∃ a rest, s.pending = a :: rest ∧ (s.withPending rest).perform a = .next t) := by
  simp only [step, State.nextAction] at h
  split at h
  · cases h; exact .inl ⟨‹_›, rfl⟩
  · exact .inr ⟨_, _, ‹_›, h⟩

/-- A step with an action pending performs it. -/
theorem step_cons {s : State} {a : Action} {rest : List Action} (h : s.pending = a :: rest) :
    step s = (s.withPending rest).perform a := by
  simp [step, State.nextAction, h]

end Sys2Proof.Machine
end

