-- ==== Sys2Proof/Laws/HostProgram.lean ====
section
/-! SUPPORT. What the lines of a host program do when they are performed, and several steps in a row (30_encoding.md R80, R82; 10_state.md R36). -/

namespace Sys2Proof.Machine

/-- The first of several steps performs the action at the head of the queue (20_memory.md R63). -/
theorem stepsTo_cons {n : Nat} {s u t : State} {a : Action} {rest : List Action}
    (hp : s.pending = a :: rest) (hu : (s.withPending rest).perform a = .next u)
    (ht : stepsTo n u t) : stepsTo (n + 1) s t :=
  ⟨u, (step_cons hp).trans hu, ht⟩

/-- A word access at a register's own address reaches it (10_state.md R36). -/
theorem State.accessReg_regAddr (s : State) (r : Reg) :
    s.accessReg (regAddr s.platform r) .word = .ok r := by
  cases r <;> simp [State.accessReg, regAddr, regOffset, regAtAddr, regAtOffset, Config.regBlockBytes]

/-- The line `wr REG, value` of a register other than CMD writes that register (30_encoding.md R80). -/
theorem State.perform_wr {r : Reg} (hr : r ≠ .cmd) (s : State) (v : Word) :
    s.perform (encodeLine s.platform (.wr r v)) = .next (s.writeReg r v) := by
  simp only [State.perform, encodeLine, State.hostWrite, State.accessReg_regAddr]

/-- The line `wr CMD, value` starts the command the value encodes (10_state.md R28). -/
theorem State.perform_wr_cmd (s : State) (v : Word) :
    s.perform (encodeLine s.platform (.wr .cmd v)) = s.writeCommand v := by
  simp only [State.perform, encodeLine, State.hostWrite, State.accessReg_regAddr]

/-- The line `rd REG` hands the register to the host (30_encoding.md R80). -/
theorem State.perform_rd (s : State) (r : Reg) :
    s.perform (encodeLine s.platform (.rd r)) = .next (s.record (.reg (s.readReg r))) := by
  simp only [State.perform, encodeLine, State.hostRead, State.accessReg_regAddr]

end Sys2Proof.Machine
end

