-- ==== Sys2Proof/Laws/Memory.lean ====
section
/-! SUPPORT. The laws of buffer memory: what a byte reads as after a write, the canonical form every operation keeps, and that equal contents are equal data (20_memory.md R53, R54). -/

namespace Sys2Proof.Machine

/-- A canonical memory from `lo` upward reads as unlisted below `lo`. -/
theorem Memory.get_below {m : Memory} {lo a : Nat} (h : Memory.wfFrom lo m = true) (ha : a < lo) :
    Memory.get m a = unlistedByte := by
  induction m generalizing lo with
  | nil => rfl
  | cons c m ih =>
    obtain ⟨k, b⟩ := c
    simp only [Memory.wfFrom, Bool.and_eq_true, decide_eq_true_eq] at h
    obtain ⟨⟨⟨hk, -⟩, -⟩, hm⟩ := h
    simp only [Memory.get]
    rw [if_neg (by omega)]
    exact ih hm (by omega)

/-- A canonical memory is canonical from any lower address. -/
theorem Memory.wfFrom_mono {m : Memory} {lo lo' : Nat} (h : Memory.wfFrom lo m = true)
    (hl : lo' ≤ lo) : Memory.wfFrom lo' m = true := by
  cases m with
  | nil => rfl
  | cons c m =>
    obtain ⟨k, b⟩ := c
    simp only [Memory.wfFrom, Bool.and_eq_true, decide_eq_true_eq] at h ⊢
    exact ⟨⟨⟨by omega, h.1.1.2⟩, h.1.2⟩, h.2⟩

/-- The byte read after one byte is written. -/
theorem Memory.get_set_from {m : Memory} {lo : Nat} (h : Memory.wfFrom lo m = true) (a : Nat)
    (b : Byte) (x : Nat) :
    Memory.get (Memory.set m a b) x = if x = a then b else Memory.get m x := by
  induction m generalizing lo with
  | nil =>
    by_cases hb : b = unlistedByte
    · simp only [Memory.set, Memory.get, hb, ite_self, if_true]
    · simp only [Memory.set, if_neg hb, Memory.get, eq_comm]
  | cons c m ih =>
    obtain ⟨k, d⟩ := c
    simp only [Memory.wfFrom, Bool.and_eq_true, decide_eq_true_eq] at h
    obtain ⟨-, hm⟩ := h
    have hbelow : ∀ y, y ≤ k → Memory.get m y = unlistedByte := fun y hy =>
      Memory.get_below hm (by omega)
    rcases Nat.lt_trichotomy a k with hlt | rfl | hgt
    · by_cases hb : b = unlistedByte <;> by_cases hx : x = a
      · simp only [Memory.set, if_pos hlt, if_true, if_pos hx, Memory.get,
          if_neg (show ¬k = x by omega), hbelow x (by omega), hb]
      · simp only [Memory.set, if_pos hlt, if_pos hb, if_neg hx]
      · simp only [Memory.set, if_pos hlt, if_neg hb, if_pos hx, Memory.get, if_pos hx.symm]
      · simp only [Memory.set, if_pos hlt, if_neg hb, if_neg hx, Memory.get, if_neg (Ne.symm hx)]
    · by_cases hb : b = unlistedByte <;> by_cases hx : x = a
      · simp only [Memory.set, lt_irrefl, if_false, if_true, if_pos hx,
          hbelow x (by omega), hb]
      · simp only [Memory.set, lt_irrefl, if_false, if_true, if_pos hb, if_neg hx, Memory.get,
          if_neg (Ne.symm hx)]
      · simp only [Memory.set, lt_irrefl, if_false, if_true, if_neg hb, if_pos hx, Memory.get,
          if_pos hx.symm]
      · simp only [Memory.set, lt_irrefl, if_false, if_true, if_neg hb, if_neg hx, Memory.get,
          if_neg (Ne.symm hx)]
    · simp only [Memory.set, if_neg (show ¬a < k by omega), if_neg (show ¬a = k by omega),
        Memory.get, ih hm]
      by_cases hx : k = x
      · simp only [if_pos hx, if_neg (show ¬x = a by omega)]
      · simp only [if_neg hx]

/-- The byte read after one byte is written, in a canonical memory. -/
theorem Memory.get_set {m : Memory} (h : Memory.wf m = true) (a : Nat) (b : Byte) (x : Nat) :
    Memory.get (Memory.set m a b) x = if x = a then b else Memory.get m x :=
  Memory.get_set_from h a b x

/-- Writing one byte keeps the canonical form. -/
theorem Memory.wfFrom_set {m : Memory} {lo : Nat} (h : Memory.wfFrom lo m = true) {a : Nat} (b : Byte)
    (hlo : lo ≤ a) (ha : a < Config.addrLimit) : Memory.wfFrom lo (Memory.set m a b) = true := by
  induction m generalizing lo with
  | nil => by_cases hb : b = unlistedByte <;> simp_all [Memory.set, Memory.wfFrom]
  | cons c m ih =>
    obtain ⟨k, d⟩ := c
    simp only [Memory.wfFrom, Bool.and_eq_true, decide_eq_true_eq] at h
    obtain ⟨⟨⟨hk, hk2⟩, hd⟩, hm⟩ := h
    simp only [Memory.set]
    split_ifs with h1 h2 h2 h3
    · simp [Memory.wfFrom, hk, hk2, hd, hm]
    · have : a + 1 ≤ k := h1
      simp [Memory.wfFrom, hlo, ha, h2, this, hk2, hd, hm]
    · exact Memory.wfFrom_mono hm (by omega)
    · subst h2; simp [Memory.wfFrom, hlo, ha, h3, hm]
    · simp only [Memory.wfFrom, Bool.and_eq_true, decide_eq_true_eq]
      exact ⟨⟨⟨hk, hk2⟩, hd⟩, ih hm (by omega)⟩

/-- Writing one byte below 2^32 keeps the canonical form. -/
theorem Memory.wf_set {m : Memory} (h : Memory.wf m = true) {a : Nat} (b : Byte)
    (ha : a < Config.addrLimit) : Memory.wf (Memory.set m a b) = true :=
  Memory.wfFrom_set h b (Nat.zero_le a) ha

/-- Writing a byte sequence that does not pass 2^32 keeps the canonical form. -/
theorem Memory.wf_write {m : Memory} (h : Memory.wf m = true) (a : Nat) (bs : List Byte)
    (ha : a + bs.length ≤ Config.addrLimit) : Memory.wf (Memory.write m a bs) = true := by
  induction bs generalizing m a with
  | nil => exact h
  | cons b bs ih =>
    simp only [List.length_cons] at ha
    exact ih (Memory.wf_set h b (by omega)) (a + 1) (by omega)

/-- Writing nothing changes nothing, wherever. -/
@[simp] theorem Memory.write_nil (m : Memory) (a : Nat) : Memory.write m a [] = m := rfl

/-- MemRead returns as many bytes as asked for (R53). -/
@[simp] theorem Memory.length_read (m : Memory) (a n : Nat) : (Memory.read m a n).length = n := by
  induction n generalizing a with
  | zero => rfl
  | succ n ih => simp [Memory.read, ih]

/-- MemRead depends only on the bytes of its range (R53). -/
theorem Memory.read_congr {m m' : Memory} {a n : Nat}
    (h : ∀ x, a ≤ x → x < a + n → Memory.get m x = Memory.get m' x) :
    Memory.read m a n = Memory.read m' a n := by
  induction n generalizing a with
  | zero => rfl
  | succ n ih =>
    simp only [Memory.read]
    rw [h a (Nat.le_refl a) (by omega), ih fun x h1 h2 => h x (by omega) (by omega)]

/-- Two canonical memories with the same bytes are the same data. -/
theorem Memory.ext_from {m m' : Memory} {lo : Nat} (h : Memory.wfFrom lo m = true)
    (h' : Memory.wfFrom lo m' = true) (hg : ∀ x, Memory.get m x = Memory.get m' x) : m = m' := by
  induction m generalizing m' lo with
  | nil =>
    cases m' with
    | nil => rfl
    | cons c m' =>
      obtain ⟨k, b⟩ := c
      simp only [Memory.wfFrom, Bool.and_eq_true, decide_eq_true_eq] at h'
      exact absurd (by simpa [Memory.get] using (hg k).symm) h'.1.2
  | cons c m ih =>
    obtain ⟨k, b⟩ := c
    simp only [Memory.wfFrom, Bool.and_eq_true, decide_eq_true_eq] at h
    obtain ⟨⟨⟨hk, -⟩, hb⟩, hm⟩ := h
    cases m' with
    | nil => exact absurd (by simpa [Memory.get] using hg k) hb
    | cons c' m' =>
      obtain ⟨k', b'⟩ := c'
      simp only [Memory.wfFrom, Bool.and_eq_true, decide_eq_true_eq] at h'
      obtain ⟨⟨⟨hk', -⟩, hb'⟩, hm'⟩ := h'
      have hkk : k = k' := by
        rcases Nat.lt_trichotomy k k' with hlt | heq | hgt
        · have := hg k
          rw [Memory.get, if_pos rfl, Memory.get, if_neg (by omega),
            Memory.get_below hm' (by omega)] at this
          exact absurd this hb
        · exact heq
        · have := hg k'
          rw [Memory.get, if_neg (by omega), Memory.get_below hm (by omega), Memory.get,
            if_pos rfl] at this
          exact absurd this.symm hb'
      subst hkk
      have hbb : b = b' := by simpa [Memory.get] using hg k
      subst hbb
      congr 1
      refine ih hm hm' fun x => ?_
      by_cases hx : x ≤ k
      · rw [Memory.get_below hm (by omega), Memory.get_below hm' (by omega)]
      · have := hg x
        rwa [Memory.get, if_neg (by omega), Memory.get, if_neg (by omega)] at this

/-- Equal contents are equal data. -/
theorem Memory.ext {m m' : Memory} (h : Memory.wf m = true) (h' : Memory.wf m' = true)
    (hg : ∀ x, Memory.get m x = Memory.get m' x) : m = m' := Memory.ext_from h h' hg

/-- MemAdmit accepts the empty range at every address (R52). -/
@[simp] theorem memAdmit_zero (p : Platform) (a : Nat) : memAdmit p a 0 = true := by
  simp [memAdmit]

/-- What an admitted, non-empty range is (R50, R52). -/
theorem memAdmit_iff (p : Platform) (a n : Nat) (hn : 0 < n) :
    memAdmit p a n = true ↔
      a + n ≤ Config.addrLimit ∧ meetsRegs p a n = false ∧
        ∃ r ∈ p.regions, r.base ≤ a ∧ a + n ≤ r.base + r.size := by
  simp [memAdmit, show n ≠ 0 by omega, and_assoc]

end Sys2Proof.Machine
end

