-- ==== Sys2Proof/Laws/PerInstr.lean ====
section
/-! SUPPORT. One lemma per command about its encoding: the word it encodes to passes every check of the command format and carries its opcode (30_encoding.md R70, R71). -/

namespace Sys2Proof.Laws.Encoding

/-- The command is well formed, its word passes both field checks, and the word's fields are its own. -/
def Statement (i : Instr) : Prop :=
  i.wf = true ∧ zeroFieldOk (encode i) = true ∧ opcodeOk (encode i) = true ∧
    zeroField (encode i) = 0#24 ∧ opField (encode i) = opcodeOf i

theorem crc32 : Statement .crc32 := ⟨rfl, by decide, by decide, by decide, by decide⟩

theorem crcstamp : Statement .crcstamp := ⟨rfl, by decide, by decide, by decide, by decide⟩

theorem enc : Statement .enc := ⟨rfl, by decide, by decide, by decide, by decide⟩

theorem dec : Statement .dec := ⟨rfl, by decide, by decide, by decide, by decide⟩

end Sys2Proof.Laws.Encoding
end

