-- ==== Sys2Proof/Tests/Slice0.lean ====
section
/-! SUPPORT. Tests with expected values from spec/, and for every statement with hypotheses a state and operands that meet them all. -/

namespace Sys2Proof.Tests

open Sys2Proof Sys2Proof.Machine

/-! ### Small states -/

/-- A platform that admits every address (20_memory.md R52 allows it). -/
def openPlatform : Platform where
  regBase := 0x40000000
  regsInBufferSpace := false
  regions := [{ base := 0, size := 0x100000000 }]
  multiChunk := .computeAndFlag

/-- The open platform, with MULTI_CHUNK = refuse. -/
def refusingPlatform : Platform := { openPlatform with multiChunk := .refuse }

/-- The open platform, with the registers mapped into the buffer space at 0x40000000. -/
def mappedPlatform : Platform := { openPlatform with regsInBufferSpace := true }

/-- A state with the three operands set, on the platform of 95_test_vectors.md section 5.2. -/
def withOperands (src dst len : Word) (m : Memory) : State :=
  { State.reset with src := src, dst := dst, len := len, mem := m }

/-- The same on the open platform. -/
def openState (src dst len : Word) : State :=
  { withOperands src dst len [] with platform := openPlatform }

/-- The same on the refusing platform. -/
def refusingState (src dst len : Word) : State :=
  { withOperands src dst len [] with platform := refusingPlatform }

/-- A state about to perform one action. -/
def about (a : Action) : State := { State.reset with pending := [a] }

/-- "123456789" at 0x1000. -/
def digits : Memory := Memory.write [] 0x1000
  [0x31#8, 0x32#8, 0x33#8, 0x34#8, 0x35#8, 0x36#8, 0x37#8, 0x38#8, 0x39#8]

/-- The key 00 01 .. 0F and the IV 10 11 .. 1F, with a block of input at 0x1000. -/
def oneBlock (input : List Byte) : State :=
  { withOperands 0x1000#32 0x2000#32 16#32 (Memory.write [] 0x1000 input) with
    key0 := 0x03020100#32, key1 := 0x07060504#32, key2 := 0x0B0A0908#32, key3 := 0x0F0E0D0C#32,
    iv0 := 0x13121110#32, iv1 := 0x17161514#32, iv2 := 0x1B1A1918#32, iv3 := 0x1F1E1D1C#32 }

/-- 00 11 22 .. FF. -/
def plainBlock : List Byte :=
  [0x00#8, 0x11#8, 0x22#8, 0x33#8, 0x44#8, 0x55#8, 0x66#8, 0x77#8,
   0x88#8, 0x99#8, 0xAA#8, 0xBB#8, 0xCC#8, 0xDD#8, 0xEE#8, 0xFF#8]

/-- The output of ENC on it (42_cipher.md R149). -/
def cipherBlock : List Byte :=
  [0x1E#8, 0xCA#8, 0x87#8, 0x0F#8, 0xFE#8, 0xA1#8, 0x14#8, 0xB7#8,
   0xFD#8, 0x6C#8, 0xF3#8, 0x63#8, 0xC3#8, 0x0B#8, 0x96#8, 0xB1#8]

/-- STATUS, RESULT and `n` bytes at `a`, where a step or command answers a next state. -/
def outcome (o : Host.Outcome State Fault Refusal) (a n : Nat) : Option (Word × Word × List Byte) :=
  match o with
  | .next t => some (t.status, t.result, Memory.read t.mem a n)
  | .fault _ => none
  | .refused _ => none

/-- The refusal a step ends in, if any. -/
def refusal (o : Host.Outcome State Fault Refusal) : Option Refusal :=
  match o with
  | .next _ => none
  | .fault _ => none
  | .refused r => some r

/-- The readings the host has after a step. -/
def readings (o : Host.Outcome State Fault Refusal) : List Reading :=
  match o with
  | .next t => t.seen
  | .fault _ => []
  | .refused _ => []

/-! ### Well-formedness: an ill-formed word for each check -/

/-- A word with bits 31:8 not zero (95_test_vectors.md section 5.2, row 0x00000110). -/
theorem test_zero_field_refused : zeroFieldOk 0x00000110#32 = false := by decide

/-- A word whose OP names no command (95_test_vectors.md section 5.2, row 0x00000012). -/
theorem test_opcode_refused : opcodeOk 0x00000012#32 = false := by decide

/-- Both checks pass on the word of ENC. -/
theorem test_command_word_ok : commandWordOk 0x00000010#32 = true := by decide

/-! ### Decoding: each word as 30_encoding.md R71 writes it -/

theorem test_decode_crc32 : decode 0b00000000000000000000000000000001#32 = .ok .crc32 := by decide

theorem test_decode_crcstamp : decode 0b00000000000000000000000000000010#32 = .ok .crcstamp := by
  decide

theorem test_decode_enc : decode 0b00000000000000000000000000010000#32 = .ok .enc := by decide

theorem test_decode_dec : decode 0b00000000000000000000000000010001#32 = .ok .dec := by decide

/-- The table's own numbering of the bits. -/
theorem test_decode_table_words :
    decodeTableWord 32 1 = some .crc32 ∧ decodeTableWord 32 2 = some .crcstamp ∧
    decodeTableWord 32 16 = some .enc ∧ decodeTableWord 32 17 = some .dec ∧
    decodeTableWord 32 0 = none := by decide

/-! ### One step of each command -/

/-- 40_crc.md R96, worked example. -/
theorem test_crc32_digits :
    outcome (step ((withOperands 0x1000#32 0#32 9#32 digits).withFetchWord 32 1)) 0x1000 1 =
      some (0x00000001#32, 0xCBF43926#32, [0x31#8]) := by decide +kernel

/-- 95_test_vectors.md section 5.2: a range that would pass 0xFFFFFFFF. -/
theorem test_crc32_bus :
    outcome (step ((withOperands 0xFFFFFFF8#32 0#32 16#32 digits).withFetchWord 32 1)) 0x1000 1 =
      some (0x00000302#32, 0x00000000#32, [0x31#8]) := by decide +kernel

/-- 95_test_vectors.md section 2.5: `DE AD BE EF 61` becomes `43 BE B7 E8 61`. -/
theorem test_crcstamp_bytes :
    outcome (step ((withOperands 0x1000#32 0#32 5#32 (Memory.write [] 0x1000
      [0xDE#8, 0xAD#8, 0xBE#8, 0xEF#8, 0x61#8])).withFetchWord 32 2)) 0x1000 5 =
      some (0x00000001#32, 0xE8B7BE43#32, [0x43#8, 0xBE#8, 0xB7#8, 0xE8#8, 0x61#8]) := by
  decide +kernel

/-- 95_test_vectors.md section 2.5: three bytes are BAD_LEN and nothing changes. -/
theorem test_crcstamp_bad_len :
    outcome (step ((withOperands 0x1000#32 0#32 3#32 digits).withFetchWord 32 2)) 0x1000 3 =
      some (0x00000202#32, 0x00000000#32, [0x31#8, 0x32#8, 0x33#8]) := by decide +kernel

/-- 42_cipher.md R149, worked example. -/
theorem test_enc_one_block :
    outcome (step ((oneBlock plainBlock).withFetchWord 32 16)) 0x2000 16 =
      some (0x00000001#32, 0x00000000#32, cipherBlock) := by decide +kernel

/-- 95_test_vectors.md section 5.2: BAD_LEN before BUS. -/
theorem test_enc_priority :
    outcome (step ((withOperands 0#32 0#32 20#32 []).withFetchWord 32 16)) 0 1 =
      some (0x00000202#32, 0x00000000#32, [0x00#8]) := by decide +kernel

/-- 42_cipher.md R150, worked example. -/
theorem test_dec_one_block :
    outcome (step ((oneBlock cipherBlock).withFetchWord 32 17)) 0x2000 16 =
      some (0x00000001#32, 0x00000000#32, plainBlock) := by decide +kernel

/-- 95_test_vectors.md section 6, P4: the destination starts below the window. -/
theorem test_dec_bus :
    outcome (step ((withOperands 0x1000#32 0x0FF8#32 16#32 []).withFetchWord 32 17)) 0x0FF8 1 =
      some (0x00000302#32, 0x00000000#32, [0x00#8]) := by decide +kernel

/-- 95_test_vectors.md section 6, P7: ENC straight after reset completes, having done nothing. -/
theorem test_enc_after_reset :
    outcome (step (State.reset.withFetchWord 32 16)) 0 1 =
      some (0x00000001#32, 0x00000000#32, [0x00#8]) := by decide

/-- 95_test_vectors.md section 5.2: an illegal word. -/
theorem test_illegal_command :
    outcome (step (State.reset.withFetchWord 32 0x80000001)) 0 0 =
      some (0x00000102#32, 0x00000000#32, []) := by decide

/-! ### The register block, stores and loads (95_test_vectors.md section 5.3) -/

theorem test_read_cmd_is_zero :
    readings (step (about (.regRead 0x00 .word))) = [.reg 0x00000000#32] := by decide

theorem test_reserved_offset_refused :
    refusal (step (about (.regRead 0x18 .word))) = some .registerReserved := by decide

theorem test_byte_write_refused :
    refusal (step (about (.regWrite 0x09 .byte 0#32))) = some .registerWidth := by decide

theorem test_misaligned_refused :
    refusal (step (about (.regRead 0x0A .word))) = some .registerMisaligned := by decide

theorem test_past_the_block_refused :
    refusal (step (about (.regWrite 0x40 .word 0#32))) = some .registerOutside := by decide

theorem test_store_then_byte :
    outcome (step (about (.store 0x1000#32 [0xAB#8, 0xCD#8]))) 0x1000 3 =
      some (0x00000000#32, 0x00000000#32, [0xAB#8, 0xCD#8, 0x00#8]) := by decide

/-- 30_encoding.md R82: the bus transactions of `enc 0x2000, 0x3000, 64`. -/
theorem test_enc_program :
    encodeProgram Config.platformAtReset (expand (.enc 0x2000#32 0x3000#32 64#32)) =
      [.regWrite 0x08 .word 0x00002000#32, .regWrite 0x0C .word 0x00003000#32,
       .regWrite 0x10 .word 0x00000040#32, .regWrite 0x00 .word 0x00000010#32] := by decide

/-! ### The functions -/

/-- 95_test_vectors.md section 2.2: four zero bytes, and one byte FF. -/
theorem test_crc32_values :
    crc32 [0x00#8, 0x00#8, 0x00#8, 0x00#8] = 0x2144DF1C#32 ∧ crc32 [0xFF#8] = 0xFF000000#32 := by
  decide +kernel

/-- 41_aes.md R112 examples. -/
theorem test_field_examples :
    xtime 0x57#8 = 0xAE#8 ∧ xtime 0xAE#8 = 0x47#8 ∧ gmul 0x57#8 0x13#8 = 0xFE#8 ∧
    gmul 0x57#8 0x83#8 = 0xC1#8 ∧ ginv 0x53#8 = 0xCA#8 := by decide +kernel

/-- 41_aes.md R118 example, both ways. -/
theorem test_mix_column :
    mixCol ⟨0xDB#8, 0x13#8, 0x53#8, 0x45#8⟩ = ⟨0x8E#8, 0x4D#8, 0xA1#8, 0xBC#8⟩ ∧
    invMixCol ⟨0x8E#8, 0x4D#8, 0xA1#8, 0xBC#8⟩ = ⟨0xDB#8, 0x13#8, 0x53#8, 0x45#8⟩ := by
  decide +kernel

/-- 41_aes.md R120 example: W[3] and W[4]. -/
theorem test_key_words :
    keyWord (Block.ofBytes [0x2B#8, 0x7E#8, 0x15#8, 0x16#8, 0x28#8, 0xAE#8, 0xD2#8, 0xA6#8,
      0xAB#8, 0xF7#8, 0x15#8, 0x88#8, 0x09#8, 0xCF#8, 0x4F#8, 0x3C#8]) 4 =
      ⟨0xA0#8, 0xFA#8, 0xFE#8, 0x17#8⟩ := by decide +kernel

/-- 41_aes.md R124, second published example. -/
theorem test_aes_published :
    (aesEnc (oneBlock []).keyBlock (Block.ofBytes plainBlock)).toBytes =
      [0x69#8, 0xC4#8, 0xE0#8, 0xD8#8, 0x6A#8, 0x7B#8, 0x04#8, 0x30#8,
       0xD8#8, 0xCD#8, 0xB7#8, 0x80#8, 0x70#8, 0xB4#8, 0xC5#8, 0x5A#8] := by decide +kernel

/-- 42_cipher.md R144: `T(0x7FFFF000)`. -/
theorem test_tweak_mask :
    tweakMask 0x7FFFF000 =
      [0x00#8, 0xF0#8, 0xFF#8, 0x7F#8, 0x00#8, 0x00#8, 0x00#8, 0x00#8,
       0x00#8, 0xF0#8, 0xFF#8, 0x7F#8, 0x00#8, 0x00#8, 0x00#8, 0x00#8] := by decide +kernel

/-- 95_test_vectors.md section 4.3: the second block is chained on the first output block. -/
theorem test_cbc_chains :
    (cbcEnc (oneBlock []).keyBlock (oneBlock []).ivBlock (plainBlock ++ plainBlock.reverse)).drop 16 =
      [0x36#8, 0x5D#8, 0x59#8, 0x61#8, 0x1E#8, 0xEB#8, 0x7F#8, 0xD4#8,
       0xB4#8, 0xC5#8, 0x6D#8, 0xDD#8, 0x5A#8, 0x46#8, 0x2C#8, 0xB5#8] := by decide +kernel

/-! ### Witnesses: a state and operands that meet the hypotheses of each statement -/

/-- CmdWriteRunsTheDecodedCommand. -/
theorem witness_cmd_write :
    (about (.regWrite 0 .word 0x10#32)).pending =
      .regWrite (about (.regWrite 0 .word 0x10#32)).platform.regBase .word 0x10#32 :: [] ∧
    decode 0x10#32 = .ok .enc ∧
    (about (.regRead 0 .word)).pending =
      .regRead (about (.regRead 0 .word)).platform.regBase .word :: [] := by decide

/-- IllegalCommandWordSetsStatusOnly, and CmdWriteRunsTheDecodedCommand on a word that is no command. -/
theorem witness_illegal_word :
    (∀ i : Instr, decode 0x12#32 ≠ .ok i) ∧
    (about (.regWrite 0 .word 0x12#32)).pending =
      .regWrite (about (.regWrite 0 .word 0x12#32)).platform.regBase .word 0x12#32 :: [] ∧
    (0x12#32 ≠ 0x01#32 ∧ 0x12#32 ≠ 0x02#32 ∧ 0x12#32 ≠ 0x10#32 ∧ 0x12#32 ≠ 0x11#32) :=
  ⟨fun i => by cases i <;> decide, by decide⟩

/-- Crc32ComputesTheChecksum, completion: the empty and the longest length. -/
theorem witness_crc32_completes :
    (openState 0#32 0#32 0#32).len.toNat ≤ 0x7FFFFFFF ∧
    (openState 0#32 0#32 0x7FFFFFFF#32).len.toNat ≤ 0x7FFFFFFF ∧
    memAdmit (openState 0#32 0#32 0x7FFFFFFF#32).platform 0 0x7FFFFFFF = true ∧
    memAdmit (openState 0#32 0#32 0#32).platform 0 0 = true := by decide

/-- Crc32ComputesTheChecksum, BAD_LEN and BUS. -/
theorem witness_crc32_errors :
    0x7FFFFFFF < (openState 0#32 0#32 0x80000000#32).len.toNat ∧
    (withOperands 0xFFF#32 0#32 2#32 []).len.toNat ≤ 0x7FFFFFFF ∧
    memAdmit (withOperands 0xFFF#32 0#32 2#32 []).platform 0xFFF 2 = false := by decide

/-- CrcstampStoresTheChecksum, completion: the shortest and the longest record. -/
theorem witness_crcstamp_completes :
    Memory.wf (openState 0#32 0#32 4#32).mem = true ∧
    4 ≤ (openState 0#32 0#32 4#32).len.toNat ∧
    (openState 0#32 0#32 4#32).len.toNat ≤ 0x7FFFFFFF ∧
    memAdmit (openState 0#32 0#32 4#32).platform 0 4 = true ∧
    4 ≤ (openState 0#32 0#32 0x7FFFFFFF#32).len.toNat ∧
    (openState 0#32 0#32 0x7FFFFFFF#32).len.toNat ≤ 0x7FFFFFFF ∧
    memAdmit (openState 0#32 0#32 0x7FFFFFFF#32).platform 0 0x7FFFFFFF = true := by decide

/-- CrcstampStoresTheChecksum, BAD_LEN on both sides and BUS. -/
theorem witness_crcstamp_errors :
    (openState 0#32 0#32 3#32).len.toNat < 4 ∧
    0x7FFFFFFF < (openState 0#32 0#32 0x80000000#32).len.toNat ∧
    4 ≤ (withOperands 0x1FFFD#32 0#32 4#32 []).len.toNat ∧
    (withOperands 0x1FFFD#32 0#32 4#32 []).len.toNat ≤ 0x7FFFFFFF ∧
    memAdmit (withOperands 0x1FFFD#32 0#32 4#32 []).platform 0x1FFFD 4 = false := by decide

/-- EncWritesTheEncryptedInput and DecWritesTheDecryptedInput, completion: the empty, one chunk and the
longest length. -/
theorem witness_cipher_completes :
    Memory.wf (openState 0#32 0#32 0x7FFFFFF0#32).mem = true ∧
    (openState 0#32 0#32 0x7FFFFFF0#32).platform.multiChunk = .computeAndFlag ∧
    (openState 0#32 0#32 0x7FFFFFF0#32).len.toNat ≤ 0x7FFFFFFF ∧
    (openState 0#32 0#32 0x7FFFFFF0#32).len.toNat % 16 = 0 ∧
    memAdmit (openState 0#32 0#32 0x7FFFFFF0#32).platform 0 0x7FFFFFF0 = true ∧
    (openState 0#32 0#32 4096#32).len.toNat % 16 = 0 ∧
    memAdmit (openState 0#32 0#32 4096#32).platform 0 4096 = true ∧
    (openState 0#32 0#32 0#32).len.toNat % 16 = 0 ∧
    memAdmit (openState 0#32 0#32 0#32).platform 0 0 = true := by decide

/-- The same statements, BAD_LEN: too long, not a multiple of 16. -/
theorem witness_cipher_bad_len :
    0x7FFFFFFF < (openState 0#32 0#32 0x80000000#32).len.toNat ∧
    (openState 0#32 0#32 0x80000000#32).platform.multiChunk = .computeAndFlag ∧
    (openState 0#32 0#32 17#32).len.toNat % 16 ≠ 0 := by decide

/-- StricterMultiChunkRefusesMoreChunks: the shortest refused length and the longest accepted one. -/
theorem witness_refusing_platform :
    (refusingState 0#32 0#32 4097#32).platform.multiChunk = .refuse ∧
    4096 < (refusingState 0#32 0#32 4097#32).len.toNat ∧
    (refusingState 0#32 0#32 4096#32).platform.multiChunk = .refuse ∧
    (refusingState 0#32 0#32 4096#32).len.toNat ≤ 4096 := by decide

/-- The same statements, BUS: the source or the destination is not admitted. -/
theorem witness_cipher_bus :
    (withOperands 0x1FFF8#32 0x2000#32 16#32 []).len.toNat ≤ 0x7FFFFFFF ∧
    (withOperands 0x1FFF8#32 0x2000#32 16#32 []).len.toNat % 16 = 0 ∧
    (withOperands 0x1FFF8#32 0x2000#32 16#32 []).platform.multiChunk = .computeAndFlag ∧
    memAdmit (withOperands 0x1FFF8#32 0x2000#32 16#32 []).platform 0x1FFF8 16 = false ∧
    memAdmit (withOperands 0x1000#32 0xFF0#32 16#32 []).platform 0xFF0 16 = false := by decide

/-- AnErrorChangesStatusOnly, StatusDescribesTheLastCommand: an error and a completion. -/
theorem witness_command_status :
    (∃ t, State.writeCommand (openState 0#32 0#32 17#32) 0x10#32 = .next t ∧
      statusErrBit t.status = true) ∧
    (∃ t, State.writeCommand (openState 0#32 0#32 0#32) 0x10#32 = .next t ∧
      statusErrBit t.status = false) := ⟨⟨_, rfl, by decide⟩, ⟨_, rfl, by decide⟩⟩

/-- Crc32Frame, CrcstampFrame, CipherFrame: each command completes on a canonical memory. -/
theorem witness_frames :
    Memory.wf digits = true ∧
    (∃ t, exec .crc32 (withOperands 0x1000#32 0#32 9#32 digits) = .next t ∧ t.status = 1#32) ∧
    (∃ t, exec .crcstamp (withOperands 0x1000#32 0#32 9#32 digits) = .next t ∧ t.status = 1#32) ∧
    (∃ t, exec .enc (withOperands 0x1000#32 0x1008#32 16#32 digits) = .next t ∧ t.status = 1#32) ∧
    (∃ t, exec .dec (withOperands 0x1000#32 0x1008#32 16#32 digits) = .next t ∧ t.status = 1#32) :=
  ⟨by decide, ⟨_, rfl, rfl⟩, ⟨_, rfl, rfl⟩, ⟨_, rfl, rfl⟩, ⟨_, rfl, rfl⟩⟩

/-- CommandTouchesOnlyItsFootprint: two states that differ only outside the read range (in the four
checksum bytes of a record), both completing. -/
theorem witness_footprint :
    (∀ r : Reg, r ≠ .result → r ≠ .status →
      (withOperands 0x1000#32 0#32 5#32 []).readReg r =
        (withOperands 0x1000#32 0#32 5#32 [(0x1000, 0xDE#8)]).readReg r) ∧
    Memory.wf [(0x1000, 0xDE#8)] = true ∧
    (∀ x, readFootprint .crcstamp (withOperands 0x1000#32 0#32 5#32 []) x →
      Memory.get [] x = Memory.get [(0x1000, 0xDE#8)] x) ∧
    (∃ t t', exec .crcstamp (withOperands 0x1000#32 0#32 5#32 []) = .next t ∧
      exec .crcstamp (withOperands 0x1000#32 0#32 5#32 [(0x1000, 0xDE#8)]) = .next t' ∧
      statusOkBit t.status = true) := by
  refine ⟨fun r _ _ => by cases r <;> rfl, by decide, fun x hx => ?_, ⟨_, _, rfl, rfl, by decide⟩⟩
  have hx : 0x1000 + 4 ≤ x := hx.1
  simp [Memory.get, show ¬0x1000 = x by omega]

/-- CommandTouchesOnlyItsFootprint and RepeatedCommandsChangeNothing: an ENC on disjoint ranges, and
one that ends in an error. -/
theorem witness_repeated :
    (withOperands 0x1000#32 0x1010#32 16#32 digits).src.toNat +
        (withOperands 0x1000#32 0x1010#32 16#32 digits).len.toNat ≤
      (withOperands 0x1000#32 0x1010#32 16#32 digits).dst.toNat ∧
    (∃ t, exec .enc (withOperands 0x1000#32 0x1010#32 16#32 digits) = .next t ∧
      statusOkBit t.status = true) ∧
    (∃ t, exec .enc (withOperands 0x1000#32 0x1010#32 17#32 digits) = .next t ∧
      statusErrBit t.status = true) := ⟨by decide, ⟨_, rfl, by decide⟩, ⟨_, rfl, by decide⟩⟩

/-- CrcstampMakesTheRecordValid (the memory after itself is one that agrees with it). -/
theorem witness_stamped :
    Memory.wf digits = true ∧
    ∃ t, exec .crcstamp (withOperands 0x1000#32 0#32 9#32 digits) = .next t ∧
      statusOkBit t.status = true := ⟨by decide, ⟨_, rfl, by decide⟩⟩

/-- Crc32VerifiesARecord. -/
theorem witness_verify :
    4 ≤ (withOperands 0x1004#32 0#32 5#32 digits).src.toNat ∧
    ∃ t, exec .crc32 (withOperands 0x1004#32 0#32 5#32 digits) = .next t ∧
      statusOkBit t.status = true := ⟨by decide, ⟨_, rfl, by decide⟩⟩

/-- ResultWrittenOnlyByCompletedChecksum: a CRC32, and a reset that clears RESULT. -/
theorem witness_result_written :
    (match step { withOperands 0x1000#32 0#32 9#32 digits with
        pending := [.regWrite 0 .word 0x01#32] } with
      | .next t => decide (t.result ≠ 0#32)
      | .fault _ => false
      | .refused _ => false) = true ∧
    (match step { about .reset with result := 7#32 } with
      | .next t => decide (t.result ≠ 7#32)
      | .fault _ => false
      | .refused _ => false) = true := by decide +kernel

/-- OperandRegistersWrittenOnlyByTheHost: a host write of LEN changes it, and a reset does. -/
theorem witness_operand_written :
    ((0x10, Reg.len) ∈ registerTable ∧ operandReg .len) ∧
    (∃ t, step (about (.regWrite 0x10 .word 5#32)) = .next t ∧
      t.readReg .len ≠ (about (.regWrite 0x10 .word 5#32)).readReg .len) ∧
    (∃ t, step { about .reset with len := 5#32 } = .next t ∧ t.readReg .len ≠ 5#32) :=
  ⟨⟨by decide, by decide, by decide, by decide⟩, ⟨_, rfl, by decide⟩, ⟨_, rfl, by decide⟩⟩

/-- OperandRegisterStoresEveryValue, StatusAndResultIgnoreHostWrites, RegisterReadReturnsItsValue: the
first and last operand register, the two read-only registers, and a read of the last offset. -/
theorem witness_register_access :
    (0x08, Reg.src) ∈ registerTable ∧ (0x3C, Reg.iv3) ∈ registerTable ∧
    (about (.regWrite 0x08 .word 9#32)).pending =
      .regWrite ((about (.regWrite 0x08 .word 9#32)).platform.regBase + 0x08) .word 9#32 :: [] ∧
    (about (.regWrite 0x3C .word 9#32)).pending =
      .regWrite ((about (.regWrite 0x3C .word 9#32)).platform.regBase + 0x3C) .word 9#32 :: [] ∧
    (about (.regWrite 0x04 .word 9#32)).pending =
      .regWrite ((about (.regWrite 0x04 .word 9#32)).platform.regBase + 0x04) .word 9#32 :: [] ∧
    (about (.regWrite 0x14 .word 9#32)).pending =
      .regWrite ((about (.regWrite 0x14 .word 9#32)).platform.regBase + 0x14) .word 9#32 :: [] ∧
    (about (.regRead 0x3C .word)).pending =
      .regRead ((about (.regRead 0x3C .word)).platform.regBase + 0x3C) .word :: [] := by decide

/-- StepRefusesExactlyUnlistedAccesses and StepFaultsExactlyOnUnadmittedBytes: both sides happen. -/
theorem witness_stops :
    (∃ e, step (about (.regRead 0x18 .word)) = .refused e) ∧
    (∃ f, step (about (.store 0x0FFF#32 [0x01#8, 0x02#8])) = .fault f) ∧
    (∃ f, step (about (.load 0x1FFFF#32 2)) = .fault f) ∧
    memAdmit (about .reset).platform 0x0FFF 1 = false ∧
    memAdmit (about .reset).platform 0x20000 1 = false :=
  ⟨⟨_, rfl⟩, ⟨_, rfl⟩, ⟨_, rfl⟩, by decide, by decide⟩

/-- MemReadAndMemWrite: a write that ends at the top of the address space. -/
theorem witness_mem_write :
    Memory.wf digits = true ∧ 0xFFFFFFFE + ([0x01#8, 0x02#8] : List Byte).length ≤ 2 ^ 32 := by decide

/-- MemAdmitMeetsItsConstraint: a range up to the top, a sub-range of it, and a mapped register block. -/
theorem witness_admit :
    memAdmit openPlatform 0xFFFFFFF0 16 = true ∧ 0xFFFFFFF0 ≤ 0xFFFFFFF8 ∧
    0xFFFFFFF8 + 8 ≤ 0xFFFFFFF0 + 16 ∧
    memAdmit mappedPlatform 0x3FFFFFF0 16 = true ∧ memAdmit mappedPlatform 0x40000040 16 = true ∧
    memAdmit mappedPlatform 0x3FFFFFF1 16 = false ∧ mappedPlatform.regsInBufferSpace = true := by
  decide

/-- EveryAdmissionPredicateHasAPlatform: MemAdmit of the open platform is such a predicate at 16 bytes
(the general laws are MemAdmitMeetsItsConstraint); here the predicate that admits only empty ranges. -/
theorem witness_admission_predicate :
    (∀ a : Nat, (fun (_ n : Nat) => n == 0) a 0 = true) ∧
    (∀ a n : Nat, 0 < n → (fun (_ n : Nat) => n == 0) a n = true → a + n ≤ 2 ^ 32) ∧
    (∀ a n a' n' : Nat, (fun (_ n : Nat) => n == 0) a n = true → a ≤ a' → a' + n' ≤ a + n →
      (fun (_ n : Nat) => n == 0) a' n' = true) := by
  refine ⟨fun _ => rfl, fun a n h1 h2 => ?_, fun a n a' n' h1 h2 h3 => ?_⟩ <;>
    simp only [beq_iff_eq] at * <;> omega

/-- HostStoreWritesItsBytes, HostLoadReturnsItsBytes: the last two bytes of the window. -/
theorem witness_host_memory :
    (about (.store 0x1FFFE#32 [0x01#8, 0x02#8])).pending = [.store 0x1FFFE#32 [0x01#8, 0x02#8]] ∧
    (about (.load 0x1FFFE#32 2)).pending = [.load 0x1FFFE#32 2] ∧
    Memory.wf (about (.load 0x1FFFE#32 2)).mem = true ∧
    (∀ j, j < 2 → memAdmit State.reset.platform ((0x1FFFE#32).toNat + j) 1 = true) := by decide

/-- StepTakesOneActionInOrder, PlatformNeverChanges, ResetEventClearsTheRegistersOnly: an idle step and
a reset step. -/
theorem witness_steps :
    (State.reset.pending = [] ∧ ∃ t, step State.reset = .next t) ∧
    ((about .reset).pending = [.reset] ∧ ∃ t, step (about .reset) = .next t) :=
  ⟨⟨rfl, _, rfl⟩, ⟨rfl, _, rfl⟩⟩

/-- StepKeepsTheInvariant: a state that meets it and steps by a storing command. -/
theorem witness_invariant :
    ((withOperands 0x1000#32 0#32 9#32 digits).withFetchWord 32 2).inv = true ∧
    ∃ t, step ((withOperands 0x1000#32 0#32 9#32 digits).withFetchWord 32 2) = .next t ∧
      statusOkBit t.status = true := ⟨by decide, ⟨_, rfl, by decide⟩⟩

/-- Crc32IsAffine, FieldLaws, RoundTransformationsInvert, ShiftRowsMovesBytes, KeyExpansionRecurrence: operands at the boundaries. -/
theorem witness_function_operands :
    ([0x01#8] : List Byte).length = ([0x02#8] : List Byte).length ∧ (0x01#8 : Byte) ≠ 0#8 ∧
    gmul 0x01#8 0x01#8 = 1#8 ∧ (3 < 4 ∧ 0 < 4 ∧ 10 ≤ 10) ∧
    Col.ofBytes (Block.ofBytes plainBlock).toBytes (4 * 3) = ⟨0xCC#8, 0xDD#8, 0xEE#8, 0xFF#8⟩ ∧
    (4 ≤ 4 ∧ 4 ≤ 43 ∧ 4 ≤ 43 ∧ 43 ≤ 43) := by decide

/-- CbcRecurrences, CbcRoundTrip, TransformKeepsTheLength, TransformActsChunkByChunk,
SingleChunkRoundTrip: one block. -/
theorem witness_one_block :
    plainBlock.length = 16 * 1 ∧ 1 ≤ 1 ∧ plainBlock.length ≤ 0x7FFFFFFF ∧ plainBlock.length ≤ 4096 ∧
    plainBlock.length % 16 = 0 ∧ 0 < (plainBlock.length + 4095) / 4096 := by decide

/-- SingleChunkRoundTrip at its longest length; MultiChunkRoundTrip and TransformsAreInjective with one
and with two blocks in the second chunk. -/
theorem witness_chunks :
    ((List.replicate 4096 0x00#8).length ≤ 4096 ∧ (List.replicate 4096 0x00#8).length % 16 = 0) ∧
    ((List.replicate 4112 0x00#8).length ≤ 0x7FFFFFFF ∧
      (List.replicate 4112 0x00#8).length % 16 = 0 ∧ 4096 * 1 < (List.replicate 4112 0x00#8).length) ∧
    4096 * 1 + 32 ≤ (List.replicate 4128 0x00#8).length ∧
    (1 ≤ 1 ∧ 16 * 1 < (chunk (List.replicate 4128 0x00#8) 1).length) := by
  simp only [chunk, List.drop_replicate, List.take_replicate, List.length_replicate]; decide

/-- TweakMaskBytes, TweakXorsTheTwoWords, TweakChangesEveryLaterChunk: the largest offset and a block. -/
theorem witness_tweak :
    0x7FFFF000 < 2 ^ 31 ∧ 0x7FFFF000 % 4096 = 0 ∧ 1 ≤ 0x7FFFF ∧ 4096 * 0x7FFFF < 2 ^ 31 ∧
    16 ≤ plainBlock.length ∧ (4 ≤ 7 ∧ 7 < 8) ∧ 15 < 16 := by decide

/-- TransformsAreInjective: two sequences of one length (equal outputs mean equal inputs). -/
theorem witness_injective (k iv : Block) :
    plainBlock.length = plainBlock.length ∧ transformEnc k iv plainBlock = transformEnc k iv plainBlock ∧
    transformDec k iv plainBlock = transformDec k iv plainBlock := ⟨rfl, rfl, rfl⟩

/-- KeyAndIvPacking: the first and the last byte of the key 00 01 .. 0F (95_test_vectors.md 5.1). -/
theorem witness_packing :
    (oneBlock []).keyBlock.toBytes.getD 0 0xFF#8 = 0x00#8 ∧
    (oneBlock []).keyBlock.toBytes.getD 15 0xFF#8 = 0x0F#8 ∧
    (oneBlock []).ivBlock.toBytes.getD 15 0xFF#8 = 0x1F#8 := by decide +kernel

/-- KeyAndIvPacking and HostLinesAreTheirTransactions: a queue that begins with each pseudo-instruction. -/
theorem witness_host_programs :
    ∀ q ∈ [Pseudo.key (Block.ofBytes plainBlock), .iv (Block.ofBytes plainBlock),
        .crc32 0x1000#32 9#32, .crcstamp 0x1000#32 9#32, .enc 0x1000#32 0x2000#32 16#32,
        .dec 0x1000#32 0x2000#32 16#32],
      (State.reset.withPending (encodeProgram Config.platformAtReset (expand q) ++ [.reset])).pending =
        encodeProgram State.reset.platform (expand q) ++ [.reset] := fun _ _ => rfl

/-- HostLinesAreTheirTransactions: two different registers. -/
theorem witness_two_registers : Reg.src ≠ Reg.len := by decide

end Sys2Proof.Tests
end

section
/-! Memory family (20_memory.md R53, R54, R59): what MemRead and MemWrite do byte by byte, and that a command depends on and writes only the bytes of its footprint. -/

namespace Sys2Proof.Machine

/-! ### MemRead and MemWrite, byte by byte (R53, R54) -/

/-- Element `j` of MemRead is the byte `j` places up (R53). -/
theorem Memory.getD_read {m : Memory} {a n j : Nat} (hj : j < n) (d : Byte) :
    (Memory.read m a n).getD j d = Memory.get m (a + j) := by
  induction n generalizing a j with
  | zero => omega
  | succ n ih =>
    cases j with
    | zero => rfl
    | succ j =>
      simp only [Memory.read, List.getD_cons_succ, ih (Nat.lt_of_succ_lt_succ hj)]
      congr 1; omega

/-- The byte read after a byte sequence is written, in a canonical memory (R54). -/
theorem Memory.get_write {m : Memory} (h : Memory.wf m = true) {a : Nat} {bs : List Byte}
    (ha : a + bs.length ≤ Config.addrLimit) (x : Nat) :
    Memory.get (Memory.write m a bs) x =
      if a ≤ x ∧ x < a + bs.length then bs.getD (x - a) 0#8 else Memory.get m x := by
  induction bs generalizing m a with
  | nil => rw [Memory.write_nil, if_neg (by simp)]
  | cons b bs ih =>
    rw [List.length_cons] at ha ⊢
    rw [Memory.write, ih (Memory.wf_set h b (by omega)) (by omega), Memory.get_set h]
    rcases Nat.lt_trichotomy x a with hlt | rfl | hgt
    · rw [if_neg (by omega), if_neg (by omega), if_neg (by omega)]
    · rw [if_neg (by omega), if_pos rfl, if_pos (by omega), Nat.sub_self, List.getD_cons_zero]
    · rw [show x - a = x - (a + 1) + 1 by omega, List.getD_cons_succ, if_neg (by omega : ¬x = a)]
      exact if_congr (by omega) rfl rfl

/-- Settles O27: MemRead by induction on the count, MemWrite by induction on the bytes written. -/
theorem memReadAndMemWrite : Obligations.MemReadAndMemWrite :=
  ⟨fun m a n => ⟨Memory.length_read m a n, fun _ hj => Memory.getD_read hj 0#8⟩,
    fun _ _ _ h ha => Memory.get_write h ha⟩

/-- An admitted range that starts at a 32-bit address does not pass 2^32 (R52). -/
theorem memAdmit_bound {p : Platform} {a : Word} {n : Nat} (h : memAdmit p a.toNat n = true) :
    a.toNat + n ≤ Config.addrLimit := by
  rcases Nat.eq_zero_or_pos n with rfl | hn
  · exact Nat.le_of_lt a.isLt
  · exact ((memAdmit_iff p _ n hn).mp h).1

/-! ### The transforms keep the length of whole blocks (42_cipher.md R156) -/

/-- A chunk is 4096 bytes, or what is left (42_cipher.md R140). -/
theorem length_chunk (b : List Byte) (m : Nat) :
    (chunk b m).length = min 4096 (b.length - 4096 * m) := by
  simp [chunk, Config.chunkBytes]

/-- The first `n` output chunks are as long as the first `n` input chunks. -/
theorem length_flatMap_applyTweak_chunk {f : List Byte → List Byte}
    (hf : ∀ x, x.length % 16 = 0 → (f x).length = x.length) {b : List Byte}
    (hb : b.length % 16 = 0) (n : Nat) :
    ((List.range n).flatMap fun m => applyTweak (4096 * m) (f (chunk b m))).length =
      min (4096 * n) b.length := by
  induction n with
  | zero => simp
  | succ n ih =>
    have hc := length_chunk b n
    rw [List.range_succ, List.flatMap_append, List.length_append, ih, List.flatMap_singleton,
      length_applyTweak, hf _ (by omega), hc]
    omega

/-- A transform over a length-keeping cipher keeps the length (R156). -/
theorem length_transform {f : List Byte → List Byte}
    (hf : ∀ x, x.length % 16 = 0 → (f x).length = x.length) {b : List Byte}
    (hb : b.length % 16 = 0) : (transform f b).length = b.length := by
  rw [transform, length_flatMap_applyTweak_chunk hf hb, nChunks]
  simp only [Config.chunkBytes]
  omega

theorem length_transformEnc (k iv : Block) {b : List Byte} (hb : b.length % 16 = 0) :
    (transformEnc k iv b).length = b.length :=
  length_transform (fun x hx => by rw [length_cbcEnc]; omega) hb

theorem length_transformDec (k iv : Block) {b : List Byte} (hb : b.length % 16 = 0) :
    (transformDec k iv b).length = b.length :=
  length_transform (fun x hx => by rw [length_cbcDec]; omega) hb

/-! ### A command as its two checks and one contiguous output (60_exceptions.md R173 to R175) -/

/-- The length check of a command. -/
def State.lenOk (i : Instr) (s : State) : Bool :=
  match i with
  | .crc32 => crc32LenOk s.len.toNat
  | .crcstamp => crcstampLenOk s.len.toNat
  | .enc | .dec => cipherLenOk s.platform s.len.toNat

/-- The address check of a command. -/
def State.rangesOk (i : Instr) (s : State) : Bool :=
  match i with
  | .crc32 | .crcstamp => s.admits s.src.toNat s.len.toNat
  | .enc | .dec => s.admits s.src.toNat s.len.toNat && s.admits s.dst.toNat s.len.toNat

/-- The effect of a command once its checks pass. -/
def State.effect (i : Instr) (s : State) : State :=
  match i with
  | .crc32 => s.crc32Effect
  | .crcstamp => s.crcstampEffect
  | .enc => s.cipherEffect transformEnc
  | .dec => s.cipherEffect transformDec

/-- Where a command stores its output. -/
def State.outAddr (i : Instr) (s : State) : Word :=
  match i with
  | .crc32 | .crcstamp => s.src
  | .enc | .dec => s.dst

/-- The bytes a command stores; CRC32 stores none. -/
def State.outBytes (i : Instr) (s : State) : List Byte :=
  match i with
  | .crc32 => []
  | .crcstamp => le32 (crc32 s.stampSpan)
  | .enc => transformEnc s.keyBlock s.ivBlock s.input
  | .dec => transformDec s.keyBlock s.ivBlock s.input

/-- Every command is its length check, its address check and its effect. -/
theorem exec_eq_command (i : Instr) (s : State) :
    exec i s = s.command (s.lenOk i) (s.rangesOk i) (State.effect i) := by
  cases i <;> rfl

/-- A command stores its output and no other byte. -/
theorem State.effect_mem (i : Instr) (s : State) :
    (s.effect i).mem = Memory.write s.mem (s.outAddr i).toNat (s.outBytes i) := by
  cases i <;> rfl

/-- Two runs with the same verdicts of the checks end in the same error, or both have their effect. -/
theorem State.command_cases_pair {s s' t t' : State} {l a : Bool} {f : State → State}
    (h : s.command l a f = .next t) (h' : s'.command l a f = .next t') :
    (∃ e, t = s.raise e ∧ t' = s'.raise e) ∨
      (l = true ∧ a = true ∧ t = f s ∧ t' = f s') := by
  rcases State.command_cases h with ⟨rfl, rfl⟩ | ⟨rfl, rfl, rfl⟩ | ⟨rfl, rfl, rfl⟩
  · exact .inl ⟨.badLen, rfl, (Host.Outcome.next.inj h').symm⟩
  · exact .inl ⟨.bus, rfl, (Host.Outcome.next.inj h').symm⟩
  · exact .inr ⟨rfl, rfl, rfl, (Host.Outcome.next.inj h').symm⟩

/-- A completed command raises no error flag. -/
theorem State.effect_statusErrBit (i : Instr) (s : State) :
    statusErrBit (s.effect i).status = false := by
  have hcipher : statusErrBit (cipherStatus s.len.toNat) = false := by
    unfold cipherStatus; split <;> decide
  cases i with
  | crc32 | crcstamp => show statusErrBit statusOk = false; decide
  | enc | dec => exact hcipher

/-- An error clears OK. -/
theorem statusOkBit_statusError (e : ErrorCode) : statusOkBit (statusError e) = false := by
  cases e <;> decide

/-- A cipher command that passes its length check has LEN bytes of output (42_cipher.md R156). -/
theorem State.length_cipherOutput {f : Block → Block → List Byte → List Byte}
    (hf : ∀ k iv {b : List Byte}, b.length % 16 = 0 → (f k iv b).length = b.length) {s : State}
    (hl : cipherLenOk s.platform s.len.toNat = true) :
    (f s.keyBlock s.ivBlock s.input).length = s.len.toNat := by
  obtain ⟨⟨-, h16⟩, -⟩ := (cipherLenOk_iff _ _).mp hl
  have hinput : s.input.length = s.len.toNat := Memory.length_read ..
  rw [hf _ _ (by rwa [hinput]), hinput]

/-- A command that passes its length check writes exactly the range its output fills (R59). -/
theorem writeFootprint_iff {i : Instr} {s : State} (hl : s.lenOk i = true) (x : Nat) :
    writeFootprint i s x ↔ inRange x (s.outAddr i).toNat (s.outBytes i).length := by
  cases i with
  | crc32 => exact ⟨False.elim, fun ⟨hle, hlt⟩ => absurd hlt (Nat.not_lt.mpr hle)⟩
  | crcstamp => simp only [writeFootprint, State.outAddr, State.outBytes, length_le32]
  | enc =>
    simp only [writeFootprint, State.outAddr, State.outBytes,
      State.length_cipherOutput length_transformEnc hl]
  | dec =>
    simp only [writeFootprint, State.outAddr, State.outBytes,
      State.length_cipherOutput length_transformDec hl]

/-- The output of a command whose checks pass does not pass 2^32 (42_cipher.md R158). -/
theorem State.outBytes_bound {i : Instr} {s : State} (hl : s.lenOk i = true)
    (ha : s.rangesOk i = true) :
    (s.outAddr i).toNat + (s.outBytes i).length ≤ Config.addrLimit := by
  cases i with
  | crc32 => exact Nat.le_of_lt s.src.isLt
  | crcstamp =>
    obtain ⟨-, h4⟩ := (crcstampLenOk_iff _).mp hl
    have hsrc := memAdmit_bound ha
    simp only [State.outAddr, State.outBytes, length_le32]
    omega
  | enc =>
    have hdst := memAdmit_bound (Bool.and_eq_true_iff.mp ha).2
    simpa only [State.outAddr, State.outBytes, State.length_cipherOutput length_transformEnc hl]
  | dec =>
    have hdst := memAdmit_bound (Bool.and_eq_true_iff.mp ha).2
    simpa only [State.outAddr, State.outBytes, State.length_cipherOutput length_transformDec hl]

section Completed

variable {i : Instr} {s : State} (hwf : Memory.wf s.mem = true) (hl : s.lenOk i = true)
  (ha : s.rangesOk i = true) {x : Nat}

include hwf hl ha

/-- A byte of the write range holds the output's byte after completion (R59). -/
theorem State.get_effect_written (hx : writeFootprint i s x) :
    Memory.get (s.effect i).mem x = (s.outBytes i).getD (x - (s.outAddr i).toNat) 0#8 := by
  rw [State.effect_mem, Memory.get_write hwf (State.outBytes_bound hl ha)]
  exact if_pos ((writeFootprint_iff hl x).mp hx)

/-- A byte outside the write range keeps its value (R59). -/
theorem State.get_effect_frame (hx : ¬writeFootprint i s x) :
    Memory.get (s.effect i).mem x = Memory.get s.mem x := by
  rw [State.effect_mem, Memory.get_write hwf (State.outBytes_bound hl ha)]
  exact if_neg (mt (writeFootprint_iff hl x).mpr hx)

end Completed

/-! ### Two runs from states that agree on what a command may depend on (R59) -/

/-- Two states with the same operands of every command and the same platform. -/
structure SameOperands (s s' : State) : Prop where
  src : s.src = s'.src
  dst : s.dst = s'.dst
  len : s.len = s'.len
  keyBlock : s.keyBlock = s'.keyBlock
  ivBlock : s.ivBlock = s'.ivBlock
  platform : s.platform = s'.platform

/-- States whose registers other than RESULT and STATUS read alike have the same operands. -/
theorem SameOperands.of_readReg {s s' : State}
    (hr : ∀ r : Reg, r ≠ .result → r ≠ .status → s.readReg r = s'.readReg r)
    (hp : s.platform = s'.platform) : SameOperands s s' where
  src := hr .src nofun nofun
  dst := hr .dst nofun nofun
  len := hr .len nofun nofun
  keyBlock := by
    simp only [State.keyBlock, State.keyBytes,
      show s.key0 = s'.key0 from hr .key0 nofun nofun, show s.key1 = s'.key1 from hr .key1 nofun nofun,
      show s.key2 = s'.key2 from hr .key2 nofun nofun, show s.key3 = s'.key3 from hr .key3 nofun nofun]
  ivBlock := by
    simp only [State.ivBlock, State.ivBytes,
      show s.iv0 = s'.iv0 from hr .iv0 nofun nofun, show s.iv1 = s'.iv1 from hr .iv1 nofun nofun,
      show s.iv2 = s'.iv2 from hr .iv2 nofun nofun, show s.iv3 = s'.iv3 from hr .iv3 nofun nofun]
  platform := hp

namespace SameOperands

variable {i : Instr} {s s' : State} (h : SameOperands s s')

include h

theorem lenOk_eq : s.lenOk i = s'.lenOk i := by
  cases i <;> simp only [State.lenOk, h.len, h.platform]

theorem rangesOk_eq : s.rangesOk i = s'.rangesOk i := by
  cases i <;> simp only [State.rangesOk, State.admits, h.src, h.dst, h.len, h.platform]

theorem outAddr_eq : s.outAddr i = s'.outAddr i := by
  cases i <;> simp only [State.outAddr, h.src, h.dst]

theorem writeFootprint_iff (x : Nat) : writeFootprint i s x ↔ writeFootprint i s' x := by
  cases i <;> simp only [writeFootprint, h.src, h.dst, h.len]

/-- STATUS at completion depends on LEN only (42_cipher.md R149). -/
theorem effect_status_eq : (s.effect i).status = (s'.effect i).status := by
  cases i with
  | crc32 | crcstamp => rfl
  | enc | dec => exact congrArg (fun n : Word => cipherStatus n.toNat) h.len

/-- Both runs end in the same error, or both complete (60_exceptions.md R175). -/
theorem exec_cases {t t' : State} (ht : exec i s = .next t) (ht' : exec i s' = .next t') :
    (∃ e, t = s.raise e ∧ t' = s'.raise e) ∨
      (s.lenOk i = true ∧ s.rangesOk i = true ∧ t = s.effect i ∧ t' = s'.effect i) := by
  rw [exec_eq_command] at ht ht'
  rw [← h.lenOk_eq, ← h.rangesOk_eq] at ht'
  exact State.command_cases_pair ht ht'

/-- The input is the same when the bytes at [SRC, SRC+LEN) are. -/
theorem input_eq (hm : ∀ x, inRange x s.src.toNat s.len.toNat →
    Memory.get s.mem x = Memory.get s'.mem x) : s.input = s'.input := by
  rw [State.input, State.input, ← h.src, ← h.len]
  exact Memory.read_congr fun x hle hlt => hm x ⟨hle, hlt⟩

/-- The stamped span is the same when its own bytes are, whatever the checksum field holds. -/
theorem stampSpan_eq (hm : ∀ x, inRange x (s.src.toNat + 4) (s.len.toNat - 4) →
    Memory.get s.mem x = Memory.get s'.mem x) : s.stampSpan = s'.stampSpan := by
  rw [State.stampSpan, State.stampSpan, ← h.src, ← h.len]
  exact Memory.read_congr fun x hle hlt => hm x ⟨hle, hlt⟩

variable (hm : ∀ x, readFootprint i s x → Memory.get s.mem x = Memory.get s'.mem x)

include hm

/-- The output depends on the operands and the read range only (R59). -/
theorem outBytes_eq : s.outBytes i = s'.outBytes i := by
  cases i with
  | crc32 => rfl
  | crcstamp => simp only [State.outBytes, h.stampSpan_eq hm]
  | enc | dec => simp only [State.outBytes, h.keyBlock, h.ivBlock, h.input_eq hm]

/-- RESULT of a checksum command depends on the operands and the read range only (R59). -/
theorem effect_result_eq (hi : i = .crc32 ∨ i = .crcstamp) :
    (s.effect i).result = (s'.effect i).result := by
  rcases hi with rfl | rfl
  · exact congrArg crc32 (h.input_eq hm)
  · exact congrArg crc32 (h.stampSpan_eq hm)

end SameOperands

/-- Settles O16: the two runs end in the same error, which shows in STATUS only, or both complete and
store the same output at the same place. -/
theorem commandTouchesOnlyItsFootprint : Obligations.CommandTouchesOnlyItsFootprint := by
  intro i s s' t t' hwf hwf' hr hp hm ht ht'
  have hops := SameOperands.of_readReg hr hp
  rcases hops.exec_cases ht ht' with ⟨e, rfl, rfl⟩ | ⟨hl, ha, rfl, rfl⟩
  · have hnot : ¬statusOkBit (s.raise e).status = true := by
      simp [statusOkBit_statusError]
    exact ⟨rfl, (absurd · hnot), (absurd · hnot), fun _ _ => rfl, fun _ _ => rfl⟩
  · have hnot : ¬statusErrBit (s.effect i).status = true := by
      simp [State.effect_statusErrBit]
    refine ⟨hops.effect_status_eq, fun _ hi => hops.effect_result_eq hm hi, fun _ x hx => ?_,
      fun _ hx => State.get_effect_frame hwf hl ha hx, (absurd · hnot)⟩
    rw [State.get_effect_written hwf hl ha hx,
      State.get_effect_written hwf' (hops.lenOk_eq ▸ hl) (hops.rangesOk_eq ▸ ha)
        ((hops.writeFootprint_iff x).mp hx),
      hops.outBytes_eq hm, hops.outAddr_eq]

end Sys2Proof.Machine
end

section
/-! Encoding family (30_encoding.md R70, R71, R73): a CMD word is its two fields, the decoder inverts the encoder on the whole word, and a word of no command is illegal. -/

namespace Sys2Proof

/-! ### The fields of a command word (R70) -/

/-- Bits 7:0 and bits 31:8 together are the whole word. -/
theorem zeroField_append_opField (v : Word) : zeroField v ++ opField v = v :=
  BitVec.extractLsb'_append_extractLsb'_eq_extractLsb' (by decide) |>.trans BitVec.extractLsb'_eq_self

/-- Two words are the same exactly when both fields are. -/
theorem word_eq_iff_fields_eq {v w : Word} :
    v = w ↔ zeroField v = zeroField w ∧ opField v = opField w := by
  refine ⟨fun h => h ▸ ⟨rfl, rfl⟩, fun ⟨hzero, hop⟩ => ?_⟩
  rw [← zeroField_append_opField v, hzero, hop, zeroField_append_opField]

/-- The command format, for every command at once. -/
theorem encode_statement (i : Instr) : Laws.Encoding.Statement i :=
  match i with
  | .crc32 => Laws.Encoding.crc32
  | .crcstamp => Laws.Encoding.crcstamp
  | .enc => Laws.Encoding.enc
  | .dec => Laws.Encoding.dec

@[simp] theorem zeroField_encode (i : Instr) : zeroField (encode i) = 0#24 := by
  obtain ⟨-, -, -, hzero, -⟩ := encode_statement i
  exact hzero

@[simp] theorem opField_encode (i : Instr) : opField (encode i) = opcodeOf i := by
  obtain ⟨-, -, -, -, hop⟩ := encode_statement i
  exact hop

/-! ### The decoder (R71, R73) -/

@[simp] theorem decodeOp_opcodeOf (i : Instr) : decodeOp (opcodeOf i) = .ok i := by
  cases i <;> rfl

/-- An opcode names a command exactly when it is that command's. -/
theorem decodeOp_eq_ok_iff {op : Byte} {i : Instr} : decodeOp op = .ok i ↔ op = opcodeOf i := by
  refine ⟨fun h => ?_, fun h => h ▸ decodeOp_opcodeOf i⟩
  unfold decodeOp at h
  split_ifs at h with h1 h2 h3 h4 <;> cases h <;> assumption

/-- A word decodes exactly when its field ZERO is zero and its field OP is an opcode. -/
theorem decode_eq_ok_iff_fields {v : Word} {i : Instr} :
    decode v = .ok i ↔ zeroField v = 0#24 ∧ opField v = opcodeOf i := by
  unfold decode
  split_ifs with hzero
  · exact ⟨nofun, fun ⟨h, _⟩ => absurd h hzero⟩
  · rw [decodeOp_eq_ok_iff, and_iff_right (not_not.mp hzero)]

/-- The whole word is matched: a word decodes to a command exactly when it is that command's word. -/
theorem decode_eq_ok_iff {v : Word} {i : Instr} : decode v = .ok i ↔ v = encode i := by
  rw [decode_eq_ok_iff_fields, word_eq_iff_fields_eq, zeroField_encode, opField_encode]

/-- Bit 4 of a command's word tells the cipher commands from the checksum commands. -/
theorem encode_bit4_iff (i : Instr) : (encode i).getLsbD 4 = true ↔ i = .enc ∨ i = .dec := by
  cases i <;> decide

/-- Settles O1: a word is its two fields, and the decoder compares both with the encoder's. -/
theorem decodeMatchesTheWholeWord : Obligations.DecodeMatchesTheWholeWord :=
  ⟨⟨rfl, rfl, rfl, rfl⟩, fun _ _ => decode_eq_ok_iff, encode_bit4_iff⟩

end Sys2Proof

namespace Sys2Proof.Machine

/-! ### An illegal command word (R73, 60_exceptions.md R172) -/

/-- ILLEGAL_CMD changes STATUS only (60_exceptions.md R176). -/
theorem State.raise_illegalCmd (s : State) :
    s.raise .illegalCmd = { s with status := 0x00000102#32 } := rfl

/-- The write to CMD of a word that decodes to no command is ILLEGAL_CMD. -/
theorem State.writeCommand_illegal {v : Word} (h : ∀ i : Instr, decode v ≠ .ok i) (s : State) :
    s.writeCommand v = .next (s.raise .illegalCmd) := by
  unfold State.writeCommand
  split
  next i hi => exact absurd hi (h i)
  next => rfl

/-- Settles O4: a word that is no command's word decodes to none. -/
theorem illegalCommandWordSetsStatusOnly : Obligations.IllegalCommandWordSetsStatusOnly := by
  intro s v hcrc32 hcrcstamp henc hdec
  have hillegal : ∀ i : Instr, decode v ≠ .ok i := fun i hi => by
    have hv : v = encode i := decode_eq_ok_iff.mp hi
    cases i with
    | crc32 => exact hcrc32 hv
    | crcstamp => exact hcrcstamp hv
    | enc => exact henc hv
    | dec => exact hdec hv
  rw [State.writeCommand_illegal hillegal, State.raise_illegalCmd]

end Sys2Proof.Machine
end

section
/-! Checksum family (40_crc.md R91 to R97): the table form is eight applications of `G`, the checksum takes its bytes in order, and what CRC32 and CRCSTAMP do in each of their three outcomes. -/

namespace Sys2Proof.Machine

/-! ### `G` and its powers (R91, R94) -/

/-- A bit of `G(v)` is the next bit of `v`, and the polynomial's bit when the bit shifted out is 1. -/
theorem getLsbD_crcShift (v : Word) (i : Nat) :
    (crcShift v).getLsbD i = (v.getLsbD (1 + i) ^^ (v.getLsbD 0 && Config.crcPoly.getLsbD i)) := by
  unfold crcShift
  cases v.getLsbD 0
  · rw [if_neg Bool.false_ne_true, BitVec.getLsbD_ushiftRight, Bool.false_and, Bool.xor_false]
  · rw [if_pos rfl, BitVec.getLsbD_xor, BitVec.getLsbD_ushiftRight, Bool.true_and]

/-- `G` is linear over XOR (R94). -/
theorem crcShift_xor (u v : Word) : crcShift (u ^^^ v) = crcShift u ^^^ crcShift v := by
  refine BitVec.eq_of_getLsbD_eq fun i _ => ?_
  simp only [BitVec.getLsbD_xor, getLsbD_crcShift, Bool.and_xor_distrib_right, Bool.xor_assoc,
    Bool.xor_left_comm]

/-- Every power of `G` is linear over XOR. -/
theorem crcShifts_xor (k : Nat) (u v : Word) :
    crcShifts k (u ^^^ v) = crcShifts k u ^^^ crcShifts k v := by
  induction k generalizing u v with
  | zero => rfl
  | succ k ih => rw [crcShifts, crcShift_xor, ih]; rfl

/-- `G^k` only shifts while the bits it shifts out are 0. -/
theorem crcShifts_eq_ushiftRight {k : Nat} {v : Word} (h : ∀ i < k, v.getLsbD i = false) :
    crcShifts k v = v >>> k := by
  induction k generalizing v with
  | zero => rfl
  | succ k ih =>
    have hshift : crcShift v = v >>> 1 := if_neg (Bool.eq_false_iff.mp (h 0 k.succ_pos))
    rw [crcShifts, hshift, ih, ← BitVec.shiftRight_add, Nat.add_comm]
    intro i hi
    rw [BitVec.getLsbD_ushiftRight]
    exact h (1 + i) (by omega)

/-- `CrcTable` is the list of the formula's values (R91). -/
theorem crcTable_eq_map :
    crcTable = (List.range 256).map fun n => crcShifts 8 (BitVec.ofNat 32 n) := by
  decide +kernel

/-- Each entry of `CrcTable` is the formula's (R91). -/
theorem crcEntry_eq_crcShifts (n : Byte) : crcEntry n = crcShifts 8 (n.setWidth 32) := by
  rw [crcEntry, crcTable_eq_map, List.getD_eq_getElem _ _ (by simpa using n.isLt), List.getElem_map,
    List.getElem_range, BitVec.ofNat_toNat]

/-- A word is its low byte and the rest. -/
theorem lowByte_xor_rest (v : Word) : (v.extractLsb' 0 8).setWidth 32 ^^^ v >>> 8 <<< 8 = v := by
  refine BitVec.eq_of_getLsbD_eq fun i hi => ?_
  by_cases h8 : i < 8
  · simp [h8, hi]
  · simp [h8, hi, show 8 + (i - 8) = i by omega]

/-- Eight applications of `G` look the low byte up and shift the rest (R94). -/
theorem crcShifts_eight (v : Word) : crcShifts 8 v = crcEntry (v.extractLsb' 0 8) ^^^ (v >>> 8) := by
  have hrest : crcShifts 8 (v >>> 8 <<< 8) = v >>> 8 := by
    rw [crcShifts_eq_ushiftRight fun i hi => by simp [hi]]
    refine BitVec.eq_of_getLsbD_eq fun i hi => ?_
    simpa [hi] using BitVec.lt_of_getLsbD
  conv_lhs => rw [← lowByte_xor_rest v]
  rw [crcShifts_xor, ← crcEntry_eq_crcShifts, hrest]

/-- The table form of the checksum step is eight applications of `G` (R92, R94). -/
theorem crcStep_eq_crcShifts (c : Word) (b : Byte) :
    crcStep c b = crcShifts 8 (c ^^^ b.setWidth 32) := by
  have hbyte : b.setWidth 32 >>> 8 = 0#32 := by
    ext i hi
    simp
  rw [crcShifts_eight, BitVec.ushiftRight_xor_distrib, hbyte, BitVec.xor_zero, crcStep]

/-- Settles O40: by linearity, `G^8` acts on the low byte and on the rest apart; the table holds what
it makes of a byte, and the rest it shifts out. -/
theorem crcStepIsEightShifts : Obligations.CrcStepIsEightShifts :=
  ⟨crcStep_eq_crcShifts, crcShift_xor, crcShifts_eight⟩

/-! ### The checksum of a byte sequence (R93) -/

/-- The complement of a checksum is the register after its bytes. -/
theorem not_crc32 (bs : List Byte) : ~~~(crc32 bs) = crcFold Config.crcInit bs := BitVec.not_not

/-- The register after one more byte. -/
theorem crcFold_append_singleton (c : Word) (bs : List Byte) (b : Byte) :
    crcFold c (bs ++ [b]) = crcStep (crcFold c bs) b := List.foldl_concat ..

/-- Settles O41: the register after one more byte is `CrcStep` of the register before it. -/
theorem crc32ConsumesBytesInOrder : Obligations.Crc32ConsumesBytesInOrder := by
  refine ⟨rfl, fun bs b => ?_, by decide +kernel⟩
  rw [not_crc32, not_crc32, crcFold_append_singleton, crcStep]

/-! ### The three outcomes of a command (60_exceptions.md R173 to R175) -/

/-- A length the command does not accept is BAD_LEN, and only STATUS shows it. -/
theorem exec_badLen {i : Instr} {s : State} (hl : s.lenOk i = false) :
    exec i s = .next { s with status := 0x00000202#32 } := by
  rw [exec_eq_command, hl]
  rfl

/-- An accepted length with a range that is not admitted is BUS, and only STATUS shows it. -/
theorem exec_bus {i : Instr} {s : State} (hl : s.lenOk i = true) (ha : s.rangesOk i = false) :
    exec i s = .next { s with status := 0x00000302#32 } := by
  rw [exec_eq_command, hl, ha]
  rfl

/-- A command whose checks pass has its effect. -/
theorem exec_completes {i : Instr} {s : State} (hl : s.lenOk i = true) (ha : s.rangesOk i = true) :
    exec i s = .next (s.effect i) := by
  rw [exec_eq_command, State.command_ok hl ha]

/-! ### What the checksum commands read and store (R96, R97) -/

/-- MemRead is the sequence of the bytes at its addresses (20_memory.md R53). -/
theorem Memory.read_eq_map (m : Memory) (a n : Nat) :
    Memory.read m a n = (List.range n).map fun j => Memory.get m (a + j) := by
  refine List.ext_getElem (by simp) fun j hj _ => ?_
  rw [List.getElem_map, List.getElem_range, ← Memory.getD_read (by simpa using hj) 0#8,
    List.getElem_eq_getD]

/-- Byte `j` of `le32` is the word shifted down by `8 j` (00_scope.md R12). -/
theorem getD_le32 (v : Word) {j : Nat} (hj : j < 4) :
    (le32 v).getD j 0#8 = (v >>> (8 * j)).setWidth 8 := by
  interval_cases j <;> ext i hi <;> simp [le32]

/-- CRC32 completes with the checksum of the LEN bytes at SRC in RESULT (R96). -/
theorem State.effect_crc32 (s : State) :
    s.effect .crc32 = { s with
      result := crc32 ((List.range s.len.toNat).map fun j => Memory.get s.mem (s.src.toNat + j))
      status := 0x00000001#32 } := by
  rw [← Memory.read_eq_map]
  rfl

/-- Settles O5: each outcome of CRC32 is one of the three outcomes of a command. -/
theorem crc32ComputesTheChecksum : Obligations.Crc32ComputesTheChecksum := by
  refine ⟨rfl, by decide +kernel, fun s => ?_⟩
  have hlen : s.lenOk .crc32 = true ↔ s.len.toNat ≤ 0x7FFFFFFF := crc32LenOk_iff _
  refine ⟨fun hl ha => ?_, fun hl => ?_, fun hl ha => ?_⟩
  · rw [exec_completes (hlen.mpr hl) ha, State.effect_crc32]
  · exact exec_badLen (Bool.eq_false_iff.mpr (mt hlen.mp (Nat.not_le.mpr hl)))
  · exact exec_bus (hlen.mpr hl) ha

/-- Settles O6: each outcome of CRCSTAMP is one of the three outcomes of a command; on completion the
bytes of `le32` of the checksum stand in the write range, and every other byte is as it was. -/
theorem crcstampStoresTheChecksum : Obligations.CrcstampStoresTheChecksum := by
  refine ⟨rfl, fun s hwf => ?_⟩
  have hlen : s.lenOk .crcstamp = true ↔ s.len.toNat ≤ 0x7FFFFFFF ∧ 4 ≤ s.len.toNat :=
    crcstampLenOk_iff _
  refine ⟨fun h4 hmax ha => ?_, fun hl => ?_, fun h4 hmax ha => ?_⟩
  · have hl := hlen.mpr ⟨hmax, h4⟩
    refine ⟨crc32 s.stampSpan, (s.effect .crcstamp).mem,
      congrArg crc32 (Memory.read_eq_map ..), exec_completes hl ha, fun x => ?_⟩
    split_ifs with hx
    · have hj : x - s.src.toNat < 4 := by omega
      exact (State.get_effect_written hwf hl ha hx).trans (getD_le32 _ hj)
    · exact State.get_effect_frame hwf hl ha hx
  · exact exec_badLen (Bool.eq_false_iff.mpr (mt hlen.mp (by omega)))
  · exact exec_bus (hlen.mpr ⟨hmax, h4⟩) ha

end Sys2Proof.Machine
end

section
/-! AES family (41_aes.md R112 to R124): the field GF(2^8), the round transformations and their inverses, the key expansion, and the block functions. -/

namespace Sys2Proof.Machine

/-! ### Multiplication by x, and the product bit by bit (R112) -/

/-- A summand taken when a bit is 1 is linear in the bit. -/
theorem ite_xor_eq_xor_ite (p q : Bool) (x : Byte) :
    (if (p ^^ q) = true then x else 0#8) =
      (if p = true then x else 0#8) ^^^ (if q = true then x else 0#8) := by
  cases p <;> cases q <;> simp

/-- Multiplication by x as a shift and a reduction. -/
theorem xtime_eq_xor_ite (a : Byte) :
    xtime a = (a <<< 1) ^^^ (if a.getLsbD 7 = true then 0x1B#8 else 0#8) := by
  unfold xtime
  split_ifs
  · rfl
  · exact BitVec.xor_zero.symm

theorem xtime_zero : xtime 0#8 = 0#8 := by decide

/-- Multiplication by x distributes over XOR. -/
theorem xtime_xor (a b : Byte) : xtime (a ^^^ b) = xtime a ^^^ xtime b := by
  simp only [xtime_eq_xor_ite, BitVec.getLsbD_xor, ite_xor_eq_xor_ite, BitVec.shiftLeft_xor_distrib]
  ac_rfl

theorem xtimes_xor (j : Nat) (a b : Byte) : xtimes j (a ^^^ b) = xtimes j a ^^^ xtimes j b := by
  induction j with
  | zero => rfl
  | succ j ih => rw [xtimes, ih, xtime_xor]; rfl

theorem xtimes_xtime (j : Nat) (a : Byte) : xtimes j (xtime a) = xtime (xtimes j a) := by
  induction j with
  | zero => rfl
  | succ j ih => rw [xtimes, ih]; rfl

theorem xtimes_eq_foldl (j : Nat) (a : Byte) :
    xtimes j a = (List.range j).foldl (fun x _ => xtime x) a := by
  induction j with
  | zero => rfl
  | succ j ih => rw [List.range_succ, List.foldl_concat, ← ih, xtimes]

theorem gmulBits_eq_foldl (a b : Byte) (n : Nat) :
    gmulBits a b n = (List.range n).foldl (fun z j =>
      if b.getLsbD j then z ^^^ (List.range j).foldl (fun x _ => xtime x) a else z) 0#8 := by
  induction n with
  | zero => rfl
  | succ n ih => rw [List.range_succ, List.foldl_concat, ← ih, ← xtimes_eq_foldl, gmulBits]

/-- One more bit of the second factor adds its power of `Xtime`. -/
theorem gmulBits_succ (a b : Byte) (n : Nat) :
    gmulBits a b (n + 1) =
      gmulBits a b n ^^^ (if b.getLsbD n = true then xtimes n a else 0#8) := by
  rw [gmulBits]
  split_ifs
  · rfl
  · exact BitVec.xor_zero.symm

theorem gmul_xor_left (a b c : Byte) : gmul (a ^^^ b) c = gmul a c ^^^ gmul b c := by
  have hbits (n : Nat) : gmulBits (a ^^^ b) c n = gmulBits a c n ^^^ gmulBits b c n := by
    induction n with
    | zero => exact BitVec.xor_self.symm
    | succ n ih =>
      simp only [gmulBits, ih, xtimes_xor]
      split_ifs
      · ac_rfl
      · rfl
  exact hbits 8

theorem gmul_xor_right (a b c : Byte) : gmul a (b ^^^ c) = gmul a b ^^^ gmul a c := by
  have hbits (n : Nat) : gmulBits a (b ^^^ c) n = gmulBits a b n ^^^ gmulBits a c n := by
    induction n with
    | zero => exact BitVec.xor_self.symm
    | succ n ih =>
      simp only [gmulBits_succ, ih, BitVec.getLsbD_xor, ite_xor_eq_xor_ite]
      ac_rfl
  exact hbits 8

theorem gmul_xtime_left (a b : Byte) : gmul (xtime a) b = xtime (gmul a b) := by
  have hbits (n : Nat) : gmulBits (xtime a) b n = xtime (gmulBits a b n) := by
    induction n with
    | zero => exact xtime_zero.symm
    | succ n ih =>
      simp only [gmulBits, ih, xtimes_xtime]
      split_ifs
      · exact (xtime_xor ..).symm
      · rfl
  exact hbits 8

@[simp] theorem gmul_zero_left (b : Byte) : gmul 0#8 b = 0#8 := by
  simpa using gmul_xor_left 0#8 0#8 b

@[simp] theorem gmul_zero_right (a : Byte) : gmul a 0#8 = 0#8 := by
  simpa using gmul_xor_right a 0#8 0#8

/-- Bit `j` of a byte is the coefficient of x^j, so a byte is the sum of its powers of x. -/
@[simp] theorem gmul_one_left (b : Byte) : gmul 1#8 b = b := by
  revert b
  decide +kernel

@[simp] theorem gmul_one_right (a : Byte) : gmul a 1#8 = a := by
  simp [gmul, gmulBits, xtimes]

/-! ### The laws of the product (R112) -/

/-- Every byte is reached from 0 and 1 by XOR and multiplication by x. -/
theorem byte_induction {P : Byte → Prop} (zero : P 0#8) (one : P 1#8)
    (xor : ∀ a b, P a → P b → P (a ^^^ b)) (xtime : ∀ a, P a → P (xtime a)) (a : Byte) : P a := by
  have hpow (j : Nat) : P (xtimes j 1#8) := by
    induction j with
    | zero => exact one
    | succ j ih => exact xtime _ ih
  have hbits (n : Nat) : P (gmulBits 1#8 a n) := by
    induction n with
    | zero => exact zero
    | succ n ih =>
      rw [gmulBits]
      split_ifs
      · exact xor _ _ ih (hpow n)
      · exact ih
  exact gmul_one_left a ▸ hbits 8

theorem gmul_xtime_right (a b : Byte) : gmul a (xtime b) = xtime (gmul a b) := by
  induction a using byte_induction with
  | zero => rw [gmul_zero_left, gmul_zero_left, xtime_zero]
  | one => rw [gmul_one_left, gmul_one_left]
  | xor a a' ih ih' => rw [gmul_xor_left, gmul_xor_left, ih, ih', xtime_xor]
  | xtime a ih => rw [gmul_xtime_left, gmul_xtime_left, ih]

theorem gmul_comm (a b : Byte) : gmul a b = gmul b a := by
  induction a using byte_induction with
  | zero => rw [gmul_zero_left, gmul_zero_right]
  | one => rw [gmul_one_left, gmul_one_right]
  | xor a a' ih ih' => rw [gmul_xor_left, gmul_xor_right, ih, ih']
  | xtime a ih => rw [gmul_xtime_left, gmul_xtime_right, ih]

theorem gmul_assoc (a b c : Byte) : gmul (gmul a b) c = gmul a (gmul b c) := by
  induction a using byte_induction with
  | zero => simp only [gmul_zero_left]
  | one => simp only [gmul_one_left]
  | xor a a' ih ih' => rw [gmul_xor_left, gmul_xor_left, gmul_xor_left, ih, ih']
  | xtime a ih => rw [gmul_xtime_left, gmul_xtime_left, gmul_xtime_left, ih]

theorem gmul_left_comm (a b c : Byte) : gmul a (gmul b c) = gmul b (gmul a c) := by
  rw [← gmul_assoc, gmul_comm a b, gmul_assoc]

theorem gmul_two (a : Byte) : gmul 0x02#8 a = xtime a := by
  have htwo : xtime 1#8 = 0x02#8 := by decide
  rw [← htwo, gmul_xtime_left, gmul_one_left]

theorem gmul_three (a : Byte) : gmul 0x03#8 a = xtime a ^^^ a := by
  have hthree : 0x02#8 ^^^ 1#8 = 0x03#8 := by decide
  rw [← hthree, gmul_xor_left, gmul_two, gmul_one_left]

/-! ### Powers and the inverse (R112): `a^255 = 1` for a nonzero byte -/

/-- `a^n` in GF(2^8). -/
def gpow (a : Byte) : Nat → Byte
  | 0 => 1#8
  | n + 1 => gmul a (gpow a n)

theorem gpow_succ (a : Byte) (n : Nat) : gpow a (n + 1) = gmul a (gpow a n) := rfl

theorem gpow_add (a : Byte) (m n : Nat) : gpow a (m + n) = gmul (gpow a m) (gpow a n) := by
  induction m with
  | zero => rw [Nat.zero_add, gpow, gmul_one_left]
  | succ m ih => rw [Nat.succ_add, gpow_succ, gpow_succ, ih, gmul_assoc]

theorem gpow_gmul (a b : Byte) (n : Nat) : gpow (gmul a b) n = gmul (gpow a n) (gpow b n) := by
  induction n with
  | zero => exact (gmul_one_left _).symm
  | succ n ih => simp only [gpow_succ, ih, gmul_assoc, gmul_left_comm b]

/-- Raising to a power of two is linear: the two cross products of a square cancel. -/
theorem gpow_two_pow_xor (a b : Byte) (n : Nat) :
    gpow (a ^^^ b) (2 ^ n) = gpow a (2 ^ n) ^^^ gpow b (2 ^ n) := by
  induction n with
  | zero => simp only [pow_zero, gpow, gmul_one_right]
  | succ n ih =>
    have hcross (u v : Byte) : gmul (u ^^^ v) (u ^^^ v) = gmul u u ^^^ gmul v v := by
      rw [gmul_xor_left, gmul_xor_right, gmul_xor_right, gmul_comm v u, BitVec.xor_assoc,
        ← BitVec.xor_assoc (gmul u v), BitVec.xor_self, BitVec.zero_xor]
    rw [Nat.pow_succ', Nat.two_mul]
    simp only [gpow_add, ih, hcross]

/-- Every byte is its own 256th power; by linearity only x itself is left to compute. -/
theorem gpow_256 (a : Byte) : gpow a 256 = a := by
  induction a using byte_induction with
  | zero => exact gmul_zero_left _
  | one => decide +kernel
  | xor a b iha ihb =>
    have hxor : gpow (a ^^^ b) 256 = gpow a 256 ^^^ gpow b 256 := gpow_two_pow_xor a b 8
    rw [hxor, iha, ihb]
  | xtime a ih =>
    have hx : gpow 0x02#8 256 = 0x02#8 := by decide +kernel
    rw [← gmul_two, gpow_gmul, hx, ih]

/-- 0 and 1 are the only idempotents: the modulus 0x11B does not split into coprime factors. -/
theorem eq_zero_or_one_of_gmul_self {e : Byte} (h : gmul e e = e) : e = 0#8 ∨ e = 1#8 := by
  revert e
  decide +kernel

/-- `a^255` is idempotent, and not 0 since `a^256` is not. -/
theorem gpow_255 {a : Byte} (ha : a ≠ 0#8) : gpow a 255 = 1#8 := by
  have hidem : gmul (gpow a 255) (gpow a 255) = gpow a 255 := by
    calc gmul (gpow a 255) (gpow a 255)
      _ = gmul (gpow a 256) (gpow a 254) := by rw [← gpow_add, ← gpow_add]
      _ = gpow a 255 := by rw [gpow_256]; rfl
  refine (eq_zero_or_one_of_gmul_self hidem).resolve_left fun h0 => ha ?_
  rw [← gpow_256 a, gpow_succ, h0, gmul_zero_right]

/-- The search for an inverse finds one if there is one. -/
theorem gmul_ginv_of_gmul_eq_one {a b : Byte} (h : gmul a b = 1#8) : gmul a (ginv a) = 1#8 := by
  have hmem : b ∈ (List.range 256).map (BitVec.ofNat 8) :=
    List.mem_map.mpr ⟨b.toNat, List.mem_range.mpr b.isLt, BitVec.ofNat_toNat ..⟩
  have hfound := List.find?_isSome (p := fun b => decide (gmul a b = 1#8)) |>.mpr
    ⟨b, hmem, decide_eq_true h⟩
  obtain ⟨c, hc⟩ := Option.isSome_iff_exists.mp hfound
  have hprod := List.find?_some hc
  rw [ginv, hc, Option.getD_some]
  exact of_decide_eq_true hprod

theorem gmul_ginv {a : Byte} (ha : a ≠ 0#8) : gmul a (ginv a) = 1#8 :=
  gmul_ginv_of_gmul_eq_one (b := gpow a 254) (gpow_255 ha)

theorem eq_ginv_of_gmul_eq_one {a b : Byte} (h : gmul a b = 1#8) : b = ginv a := by
  calc b
    _ = gmul b (gmul a (ginv a)) := by rw [gmul_ginv_of_gmul_eq_one h, gmul_one_right]
    _ = ginv a := by rw [← gmul_assoc, gmul_comm b a, h, gmul_one_left]

theorem ginv_zero : ginv 0#8 = 0#8 := by
  have hnone : ((List.range 256).map (BitVec.ofNat 8)).find? (fun b => decide (gmul 0#8 b = 1#8)) =
      none := by
    simp
  rw [ginv, hnone, Option.getD_none]

/-- Settles O43: the laws hold for 0 and 1, and XOR and multiplication by x keep them; the inverse of a
nonzero byte is its 254th power. -/
theorem fieldLaws : Obligations.FieldLaws := by
  refine ⟨by decide +kernel, fun a b c => ⟨?_, gmulBits_eq_foldl a b 8, gmul_comm a b,
    gmul_assoc a b c, gmul_xor_right a b c, gmul_one_right a, gmul_zero_right a,
    fun ha => ⟨gmul_ginv ha, eq_ginv_of_gmul_eq_one⟩, ginv_zero⟩⟩
  unfold xtime
  cases a.getLsbD 7 <;> rfl

/-! ### Blocks by column, and columns by byte (R113) -/

/-- Byte `r + 4c` of a block is byte `r` of its column `c`. -/
theorem Block.getD_toBytes (x : Block) {r c : Nat} (hr : r < 4) (hc : c < 4) :
    x.toBytes.getD (r + 4 * c) 0#8 = (x.col c).toBytes.getD r 0#8 := by
  interval_cases c <;> interval_cases r <;> rfl

/-- The four bytes from `4c` on are column `c`. -/
theorem Col.ofBytes_toBytes (x : Block) {c : Nat} (hc : c < 4) :
    Col.ofBytes x.toBytes (4 * c) = x.col c := by
  interval_cases c <;> rfl

theorem Block.col_mapCols (f : Col → Col) (x : Block) {c : Nat} (hc : c < 4) :
    (x.mapCols f).col c = f (x.col c) := by
  interval_cases c <;> rfl

theorem Block.col_xor (x y : Block) {c : Nat} (hc : c < 4) :
    (x.xor y).col c = (x.col c).xor (y.col c) := by
  interval_cases c <;> rfl

theorem Col.getD_toBytes_map (f : Byte → Byte) (w : Col) {r : Nat} (hr : r < 4) :
    (w.map f).toBytes.getD r 0#8 = f (w.toBytes.getD r 0#8) := by
  interval_cases r <;> rfl

theorem Col.getD_toBytes_xor (w v : Col) {r : Nat} (hr : r < 4) :
    (w.xor v).toBytes.getD r 0#8 = w.toBytes.getD r 0#8 ^^^ v.toBytes.getD r 0#8 := by
  interval_cases r <;> rfl

/-- A function on bytes, applied to every byte of a block, shows at every byte. -/
theorem Block.getD_toBytes_mapCols_map (f : Byte → Byte) (x : Block) {r c : Nat} (hr : r < 4)
    (hc : c < 4) :
    (x.mapCols (Col.map f)).toBytes.getD (r + 4 * c) 0#8 = f (x.toBytes.getD (r + 4 * c) 0#8) := by
  rw [Block.getD_toBytes _ hr hc, Block.col_mapCols _ _ hc, Col.getD_toBytes_map _ _ hr,
    Block.getD_toBytes _ hr hc]

theorem Col.map_map_cancel {f g : Byte → Byte} (h : ∀ a, g (f a) = a) (w : Col) :
    (w.map f).map g = w := by
  simp only [Col.map, h]

theorem Block.mapCols_mapCols_cancel {f g : Col → Col} (h : ∀ w, g (f w) = w) (x : Block) :
    (x.mapCols f).mapCols g = x := by
  simp only [Block.mapCols, h]

/-! ### ShiftRows and SubBytes (R116, R117) -/

@[simp] theorem invShiftRows_shiftRows (s : Block) : invShiftRows (shiftRows s) = s := rfl

@[simp] theorem shiftRows_invShiftRows (s : Block) : shiftRows (invShiftRows s) = s := rfl

/-- Settles O46: each of the 16 byte positions, by computation. -/
theorem shiftRowsMovesBytes : Obligations.ShiftRowsMovesBytes := by
  intro s r c hr hc
  refine ⟨?_, ?_, invShiftRows_shiftRows s, shiftRows_invShiftRows s⟩
  · interval_cases r <;> interval_cases c <;> rfl
  · interval_cases r <;> interval_cases c <;> rfl

theorem invSbox_sbox (a : Byte) : invSbox (sbox a) = a := by
  revert a
  decide +kernel

/-- On a finite type a left inverse is a right inverse. -/
theorem sbox_invSbox (a : Byte) : sbox (invSbox a) = a :=
  Function.LeftInverse.rightInverse_of_surjective invSbox_sbox
    (Finite.injective_iff_surjective.mp (Function.LeftInverse.injective invSbox_sbox)) a

@[simp] theorem invSubBytes_subBytes (s : Block) : invSubBytes (subBytes s) = s :=
  Block.mapCols_mapCols_cancel (Col.map_map_cancel invSbox_sbox) s

@[simp] theorem subBytes_invSubBytes (s : Block) : subBytes (invSubBytes s) = s :=
  Block.mapCols_mapCols_cancel (Col.map_map_cancel sbox_invSbox) s

/-! ### MixColumns as multiplication of polynomials modulo X^4 + 1 (R118) -/

/-- The product of two columns, read as polynomials over GF(2^8), modulo X^4 + 1. -/
def Col.polyMul (p w : Col) : Col :=
  ⟨gmul p.a0 w.a0 ^^^ gmul p.a3 w.a1 ^^^ gmul p.a2 w.a2 ^^^ gmul p.a1 w.a3,
   gmul p.a1 w.a0 ^^^ gmul p.a0 w.a1 ^^^ gmul p.a3 w.a2 ^^^ gmul p.a2 w.a3,
   gmul p.a2 w.a0 ^^^ gmul p.a1 w.a1 ^^^ gmul p.a0 w.a2 ^^^ gmul p.a3 w.a3,
   gmul p.a3 w.a0 ^^^ gmul p.a2 w.a1 ^^^ gmul p.a1 w.a2 ^^^ gmul p.a0 w.a3⟩

theorem Col.polyMul_assoc (p q w : Col) : (p.polyMul q).polyMul w = p.polyMul (q.polyMul w) := by
  simp only [Col.polyMul, gmul_xor_left, gmul_xor_right, gmul_assoc, Col.mk.injEq]
  refine ⟨?_, ?_, ?_, ?_⟩ <;> ac_rfl

theorem Col.one_polyMul (w : Col) : Col.polyMul ⟨1#8, 0#8, 0#8, 0#8⟩ w = w := by
  simp [Col.polyMul]

/-- The factor of MixColumns. -/
def mixPoly : Col := ⟨0x02#8, 0x01#8, 0x01#8, 0x03#8⟩

/-- The factor of InvMixColumns. -/
def invMixPoly : Col := ⟨0x0E#8, 0x09#8, 0x0D#8, 0x0B#8⟩

theorem mixCol_eq_polyMul (w : Col) : mixCol w = mixPoly.polyMul w := by
  simp [mixCol, mixPoly, Col.polyMul]

theorem invMixCol_eq_polyMul (w : Col) : invMixCol w = invMixPoly.polyMul w := rfl

/-- The two factors are inverse, both ways since the product of polynomials commutes. -/
theorem mixPoly_polyMul_invMixPoly :
    mixPoly.polyMul invMixPoly = ⟨1#8, 0#8, 0#8, 0#8⟩ ∧
      invMixPoly.polyMul mixPoly = ⟨1#8, 0#8, 0#8, 0#8⟩ := by
  decide +kernel

theorem invMixCol_mixCol (w : Col) : invMixCol (mixCol w) = w := by
  rw [mixCol_eq_polyMul, invMixCol_eq_polyMul, ← Col.polyMul_assoc, mixPoly_polyMul_invMixPoly.2,
    Col.one_polyMul]

theorem mixCol_invMixCol (w : Col) : mixCol (invMixCol w) = w := by
  rw [mixCol_eq_polyMul, invMixCol_eq_polyMul, ← Col.polyMul_assoc, mixPoly_polyMul_invMixPoly.1,
    Col.one_polyMul]

@[simp] theorem invMixColumns_mixColumns (s : Block) : invMixColumns (mixColumns s) = s :=
  Block.mapCols_mapCols_cancel invMixCol_mixCol s

@[simp] theorem mixColumns_invMixColumns (s : Block) : mixColumns (invMixColumns s) = s :=
  Block.mapCols_mapCols_cancel mixCol_invMixCol s

/-! ### AddRoundKey and the words of the expanded key (R119, R120) -/

@[simp] theorem addRoundKey_addRoundKey (k : Block) (j : Nat) (s : Block) :
    addRoundKey k j (addRoundKey k j s) = s := Block.xor_xor_cancel s (roundKey k j)

/-- `W[4j + c]` is column `c` of round key `j`. -/
theorem keyWord_four_mul_add (k : Block) (j : Nat) {c : Nat} (hc : c < 4) :
    keyWord k (4 * j + c) = (roundKey k j).col c := by
  rw [keyWord, show (4 * j + c) / 4 = j by omega, show (4 * j + c) % 4 = c by omega]

/-- `W[4j]` is the first column of round key `j`. -/
theorem keyWord_four_mul (k : Block) (j : Nat) : keyWord k (4 * j) = (roundKey k j).col 0 :=
  keyWord_four_mul_add k j (c := 0) (by decide)

theorem getD_toBytes_addRoundKey (k s : Block) (j : Nat) {r c : Nat} (hr : r < 4) (hc : c < 4) :
    (addRoundKey k j s).toBytes.getD (r + 4 * c) 0#8 =
      s.toBytes.getD (r + 4 * c) 0#8 ^^^ (keyWord k (4 * j + c)).toBytes.getD r 0#8 := by
  rw [addRoundKey, Block.getD_toBytes _ hr hc, Block.col_xor _ _ hc, Col.getD_toBytes_xor _ _ hr,
    ← Block.getD_toBytes _ hr hc, keyWord_four_mul_add k j hc]

/-- Round key `j` is `W[4j]` to `W[4j+3]`. -/
theorem toBytes_roundKey (k : Block) (j : Nat) :
    (roundKey k j).toBytes =
      (keyWord k (4 * j)).toBytes ++ (keyWord k (4 * j + 1)).toBytes ++
        (keyWord k (4 * j + 2)).toBytes ++ (keyWord k (4 * j + 3)).toBytes := by
  have hcol (c : Nat) (hc : c < 4) := keyWord_four_mul_add k j hc
  rw [keyWord_four_mul, hcol 1 (by decide), hcol 2 (by decide), hcol 3 (by decide)]
  rfl

/-- Settles O45: the bytewise forms through the columns of a block; MixColumns and its inverse multiply
by polynomials inverse to one another. -/
theorem roundTransformationsInvert : Obligations.RoundTransformationsInvert := by
  refine ⟨fun s r c hr hc => ⟨Block.getD_toBytes_mapCols_map sbox s hr hc,
      Block.getD_toBytes_mapCols_map invSbox s hr hc⟩,
    fun a => ⟨gmul_two a, gmul_three a⟩, fun s c a0 a1 a2 a3 hc hcol => ?_, by decide +kernel,
    fun k s j r c _ hr hc => ⟨getD_toBytes_addRoundKey k s j hr hc, toBytes_roundKey k j, rfl⟩,
    fun k s j => ⟨invSubBytes_subBytes s, subBytes_invSubBytes s, invShiftRows_shiftRows s,
      shiftRows_invShiftRows s, invMixColumns_mixColumns s, mixColumns_invMixColumns s,
      addRoundKey_addRoundKey k j s⟩⟩
  rw [Col.ofBytes_toBytes _ hc] at hcol
  rw [Col.ofBytes_toBytes _ hc, Col.ofBytes_toBytes _ hc, mixColumns, invMixColumns,
    Block.col_mapCols _ _ hc, Block.col_mapCols _ _ hc, hcol]
  exact ⟨rfl, rfl⟩

/-- The first word of a round key takes the rotated and substituted last word of the one before (R120). -/
theorem keyWord_four_mul_succ (k : Block) (j : Nat) :
    keyWord k (4 * (j + 1)) = (keyWord k (4 * j)).xor
      ((subWord (rotWord (keyWord k (4 * j + 3)))).xor ⟨rcon (j + 1), 0x00#8, 0x00#8, 0x00#8⟩) := by
  rw [keyWord_four_mul, keyWord_four_mul, keyWord_four_mul_add k j (c := 3) (by decide)]
  rfl

/-- Every other word takes the word before it (R120). -/
theorem keyWord_four_mul_add_succ (k : Block) (j : Nat) {c : Nat} (hc : c < 3) :
    keyWord k (4 * (j + 1) + (c + 1)) =
      (keyWord k (4 * j + (c + 1))).xor (keyWord k (4 * (j + 1) + c)) := by
  rw [keyWord_four_mul_add k _ (by omega), keyWord_four_mul_add k _ (by omega),
    keyWord_four_mul_add k _ (by omega)]
  interval_cases c <;> rfl

/-- Settles O47: word `i` is word `i mod 4` of round key `i div 4`, and a round key is computed word by
word from the one before. -/
theorem keyExpansionRecurrence : Obligations.KeyExpansionRecurrence := by
  refine ⟨fun k i hi => ?_, fun k i h4 _ => ?_, fun _ _ _ _ => ⟨rfl, rfl⟩, by decide +kernel,
    fun _ => rfl⟩
  · rw [Col.ofBytes_toBytes k hi]
    rw [keyWord, Nat.div_eq_of_lt hi, Nat.mod_eq_of_lt hi, roundKey]
  · obtain ⟨j, hj⟩ : ∃ j, i / 4 = j + 1 := ⟨i / 4 - 1, by omega⟩
    split_ifs with h0
    · rw [hj, show i = 4 * (j + 1) by omega, keyWord_four_mul_succ]
      rfl
    · obtain ⟨c, hc⟩ : ∃ c, i % 4 = c + 1 := ⟨i % 4 - 1, by omega⟩
      have hi : i = 4 * (j + 1) + (c + 1) := by omega
      rw [show i - 4 = 4 * j + (c + 1) by omega, show i - 1 = 4 * (j + 1) + c by omega, hi,
        keyWord_four_mul_add_succ k j (by omega)]

/-! ### The block functions undo one another (R121 to R123) -/

/-- Decryption rounds `j` down to 1 and the last half round undo encryption rounds 1 to `j`. -/
theorem decRounds_encRounds (k p : Block) (j : Nat) :
    decRounds k j (shiftRows (subBytes (encRounds k p j))) = p := by
  induction j with
  | zero => simp only [encRounds, decRounds, invShiftRows_shiftRows, invSubBytes_subBytes,
      addRoundKey_addRoundKey]
  | succ j ih =>
    simpa only [encRounds, decRounds, invShiftRows_shiftRows, invSubBytes_subBytes,
      addRoundKey_addRoundKey, invMixColumns_mixColumns] using ih

/-- Encryption rounds 1 to `j` undo decryption rounds `j` down to 1, up to the half round they share. -/
theorem encRounds_decRounds (k : Block) (j : Nat) (s : Block) :
    encRounds k (decRounds k j s) j = invSubBytes (invShiftRows s) := by
  induction j generalizing s with
  | zero => exact addRoundKey_addRoundKey k 0 _
  | succ j ih =>
    simp only [encRounds, decRounds, ih, subBytes_invSubBytes, shiftRows_invShiftRows,
      mixColumns_invMixColumns, addRoundKey_addRoundKey]

theorem aesDec_aesEnc (k x : Block) : aesDec k (aesEnc k x) = x := by
  rw [aesDec, aesEnc, addRoundKey_addRoundKey, decRounds_encRounds]

theorem aesEnc_aesDec (k x : Block) : aesEnc k (aesDec k x) = x := by
  rw [aesDec, aesEnc, encRounds_decRounds, subBytes_invSubBytes, shiftRows_invShiftRows,
    addRoundKey_addRoundKey]

/-- Settles O48: each round transformation is undone by its inverse, so by induction on the number of
rounds the rounds are; the published values by evaluation. -/
theorem aesDecInvertsAesEnc : Obligations.AesDecInvertsAesEnc :=
  ⟨fun k x => ⟨aesDec_aesEnc k x, aesEnc_aesDec k x⟩, fun _ _ => rfl, fun _ _ => rfl,
    by decide +kernel⟩

end Sys2Proof.Machine
end

section
/-! Cipher family (42_cipher.md R140 to R159): CBC block by block and its inverse, the tweak byte by byte, the transform chunk by chunk, and what ENC and DEC do in each of their three outcomes. -/

namespace Sys2Proof.Machine

/-! ### CBC block by block (R142, R143) -/

/-- Block `i` of the bytes of blocks is the block there. -/
theorem ofBytes_drop_bytesOf (ys : List Block) {i : Nat} (hi : i < ys.length) :
    Block.ofBytes ((bytesOf ys).drop (16 * i)) = ys[i] := by
  induction ys generalizing i with
  | nil => exact absurd hi i.not_lt_zero
  | cons y ys ih =>
    cases i with
    | zero => rfl
    | succ i => exact ih (Nat.lt_of_succ_lt_succ hi)

/-- Block `i` of a byte sequence starts at byte `16 i` (R142). -/
theorem getElem_blocksOf (n : Nat) (x : List Byte) {i : Nat} (hi : i < (blocksOf n x).length) :
    (blocksOf n x)[i] = Block.ofBytes (x.drop (16 * i)) := by
  induction n generalizing x i with
  | zero => exact absurd hi i.not_lt_zero
  | succ n ih =>
    cases i with
    | zero => rfl
    | succ i =>
      have hdrop : (x.drop 16).drop (16 * i) = x.drop (16 * (i + 1)) := by
        rw [List.drop_drop, Nat.mul_succ, Nat.add_comm]
      exact hdrop ▸ ih (x.drop 16) (Nat.lt_of_succ_lt_succ hi)

/-- Each output block of `CbcEnc` is chained on the output block before it (R142). -/
theorem getElem_cbcEncBlocks (k prev : Block) (xs : List Block) {i : Nat} (hi : i < xs.length) :
    (cbcEncBlocks k prev xs)[i]'(by simpa) =
      aesEnc k (xs[i].xor
        (if i = 0 then prev else (cbcEncBlocks k prev xs)[i - 1]'(by simp; omega))) := by
  induction xs generalizing prev i with
  | nil => exact absurd hi i.not_lt_zero
  | cons x xs ih =>
    match i with
    | 0 => rfl
    | 1 => exact ih _ (Nat.lt_of_succ_lt_succ hi)
    | i + 2 => exact ih _ (Nat.lt_of_succ_lt_succ hi)

/-- Each output block of `CbcDec` is chained on the input block before it (R143). -/
theorem getElem_cbcDecBlocks (k prev : Block) (ys : List Block) {i : Nat} (hi : i < ys.length) :
    (cbcDecBlocks k prev ys)[i]'(by simpa) =
      (aesDec k ys[i]).xor (if i = 0 then prev else ys[i - 1]) := by
  induction ys generalizing prev i with
  | nil => exact absurd hi i.not_lt_zero
  | cons y ys ih =>
    match i with
    | 0 => rfl
    | 1 => exact ih _ (Nat.lt_of_succ_lt_succ hi)
    | i + 2 => exact ih _ (Nat.lt_of_succ_lt_succ hi)

/-- Block `i` of `CbcEnc` (R142). -/
theorem ofBytes_drop_cbcEnc (k iv : Block) (x : List Byte) {i : Nat} (hi : i < x.length / 16) :
    Block.ofBytes ((cbcEnc k iv x).drop (16 * i)) =
      aesEnc k ((Block.ofBytes (x.drop (16 * i))).xor
        (if i = 0 then iv else Block.ofBytes ((cbcEnc k iv x).drop (16 * (i - 1))))) := by
  have hprev : i - 1 < x.length / 16 := by omega
  rw [cbcEnc, ofBytes_drop_bytesOf _ (by simpa using hi),
    ofBytes_drop_bytesOf _ (by simpa using hprev),
    getElem_cbcEncBlocks _ _ _ (by simpa using hi), getElem_blocksOf]

/-- Block `i` of `CbcDec` (R143). -/
theorem ofBytes_drop_cbcDec (k iv : Block) (y : List Byte) {i : Nat} (hi : i < y.length / 16) :
    Block.ofBytes ((cbcDec k iv y).drop (16 * i)) =
      (aesDec k (Block.ofBytes (y.drop (16 * i)))).xor
        (if i = 0 then iv else Block.ofBytes (y.drop (16 * (i - 1)))) := by
  rw [cbcDec, ofBytes_drop_bytesOf _ (by simpa using hi),
    getElem_cbcDecBlocks _ _ _ (by simpa using hi), getElem_blocksOf, getElem_blocksOf]

/-- Settles O49: both recurrences on blocks, by induction on the blocks, read back from the bytes. -/
theorem cbcRecurrences : Obligations.CbcRecurrences := by
  intro k iv x n _ hx
  have hn : x.length / 16 = n := by omega
  refine ⟨⟨?_, fun i hi => ofBytes_drop_cbcEnc k iv x (hn ▸ hi)⟩,
    ⟨?_, fun i hi => ofBytes_drop_cbcDec k iv x (hn ▸ hi)⟩⟩
  · rw [length_cbcEnc, hn]
  · rw [length_cbcDec, hn]

/-! ### CBC undone (R159) -/

theorem cbcDecBlocks_cbcEncBlocks (k prev : Block) (xs : List Block) :
    cbcDecBlocks k prev (cbcEncBlocks k prev xs) = xs := by
  induction xs generalizing prev with
  | nil => rfl
  | cons x xs ih => rw [cbcEncBlocks, cbcDecBlocks, ih, aesDec_aesEnc, Block.xor_xor_cancel]

theorem cbcEncBlocks_cbcDecBlocks (k prev : Block) (ys : List Block) :
    cbcEncBlocks k prev (cbcDecBlocks k prev ys) = ys := by
  induction ys generalizing prev with
  | nil => rfl
  | cons y ys ih => rw [cbcDecBlocks, cbcEncBlocks, Block.xor_xor_cancel, aesEnc_aesDec, ih]

/-- The bytes of blocks, cut into blocks again. -/
theorem blocksOf_length_bytesOf (ys : List Block) :
    blocksOf ((bytesOf ys).length / Config.blockBytes) (bytesOf ys) = ys := by
  rw [length_bytesOf, Nat.mul_div_cancel_left _ (by decide), blocksOf_bytesOf]

/-- `CbcDec` undoes `CbcEnc` on whole blocks, the empty sequence included (R159). -/
theorem cbcDec_cbcEnc (k iv : Block) {x : List Byte} (hx : x.length % 16 = 0) :
    cbcDec k iv (cbcEnc k iv x) = x := by
  rw [cbcDec, cbcEnc, blocksOf_length_bytesOf, cbcDecBlocks_cbcEncBlocks,
    bytesOf_blocksOf _ (Nat.mul_div_cancel' (Nat.dvd_of_mod_eq_zero hx)).symm]

/-- `CbcEnc` undoes `CbcDec` on whole blocks, the empty sequence included (R159). -/
theorem cbcEnc_cbcDec (k iv : Block) {y : List Byte} (hy : y.length % 16 = 0) :
    cbcEnc k iv (cbcDec k iv y) = y := by
  rw [cbcEnc, cbcDec, blocksOf_length_bytesOf, cbcEncBlocks_cbcDecBlocks,
    bytesOf_blocksOf _ (Nat.mul_div_cancel' (Nat.dvd_of_mod_eq_zero hy)).symm]

/-- Settles O50: `AesDec` undoes `AesEnc` and XOR cancels, block by block. -/
theorem cbcRoundTrip : Obligations.CbcRoundTrip := by
  intro k iv x n _ hx
  have h16 : x.length % 16 = 0 := by omega
  exact ⟨cbcDec_cbcEnc k iv h16, cbcEnc_cbcDec k iv h16⟩

/-! ### The tweak byte by byte (R144, R145, R151) -/

/-- Byte `j` of `le64` is the word shifted down by `8 j` (00_scope.md R12). -/
theorem getD_le64 (v : DWord) {j : Nat} (hj : j < 8) (d : Byte) :
    (le64 v).getD j d = (v >>> (8 * j)).setWidth 8 := by
  interval_cases j <;> ext i hi <;> simp [le64]

/-- Byte `j` of `le64(zext_64(off))` is byte `j` of `off`. -/
theorem getD_le64_ofNat (off : Nat) {j : Nat} (hj : j < 8) (d : Byte) :
    (le64 (BitVec.ofNat 64 off)).getD j d = BitVec.ofNat 8 (off / 2 ^ (8 * j)) := by
  rw [getD_le64 _ hj]
  refine BitVec.eq_of_getLsbD_eq fun i hi => ?_
  simp only [BitVec.getLsbD_setWidth, BitVec.getLsbD_ushiftRight, BitVec.getLsbD_ofNat,
    Nat.testBit_div_two_pow, hi, show i + 8 * j < 64 by omega, decide_true, Bool.true_and,
    Nat.add_comm]

/-- Byte `j` of the tweak mask is byte `j mod 8` of the offset (R144). -/
theorem getD_tweakMask (off : Nat) {j : Nat} (hj : j < 16) (d : Byte) :
    (tweakMask off).getD j d = BitVec.ofNat 8 (off / 2 ^ (8 * (j % 8))) := by
  rcases Nat.lt_or_ge j 8 with h | h
  · rw [tweakMask, List.getD_append _ _ _ _ (by simpa), getD_le64_ofNat _ h, Nat.mod_eq_of_lt h]
  · rw [tweakMask, List.getD_append_right _ _ _ _ (by simpa), length_le64,
      getD_le64_ofNat _ (by omega), show j % 8 = j - 8 by omega]

/-- A byte of an offset below 2^32 from byte 4 on is 0. -/
theorem offsetByte_eq_zero {off j : Nat} (hoff : off < 2 ^ 32) (hj : 4 ≤ j) :
    BitVec.ofNat 8 (off / 2 ^ (8 * j)) = 0x00#8 := by
  rw [Nat.div_eq_of_lt (hoff.trans_le (Nat.pow_le_pow_right (by decide) (by omega)))]

/-- Settles O51: every clause about the bytes through the byte `j mod 8` of the offset; the widenings
agree since bit 31 of the offset is 0. -/
theorem tweakMaskBytes : Obligations.TweakMaskBytes := by
  intro off hoff
  have hoff32 : off < 2 ^ 32 := hoff.trans (by decide)
  refine ⟨rfl, fun j hj => getD_tweakMask off hj _, fun j h4 h8 => ?_, fun h => ?_, ?_, ?_⟩
  · rw [getD_tweakMask off (by omega), getD_tweakMask off (by omega), Nat.add_mod_right,
      Nat.mod_eq_of_lt h8, offsetByte_eq_zero hoff32 h4]
    exact ⟨rfl, rfl⟩
  · have hlow : BitVec.ofNat 8 (off / 2 ^ (8 * 0)) = 0x00#8 := by
      simpa [← BitVec.toNat_inj] using show off % 256 = 0 by omega
    have hnibble : (BitVec.ofNat 8 (off / 2 ^ (8 * 1))).extractLsb' 0 4 = 0#4 := by
      simpa [← BitVec.toNat_inj] using show off / 256 % 256 % 16 = 0 by omega
    refine ⟨?_, ?_, ?_, ?_⟩ <;> rw [getD_tweakMask off (by decide)] <;> assumption
  · refine BitVec.signExtend_eq_setWidth_of_msb_false ?_
    rw [BitVec.msb_eq_false_iff_two_mul_lt, BitVec.toNat_ofNat, Nat.mod_eq_of_lt hoff32]
    omega
  · exact BitVec.setWidth_ofNat_of_le_of_lt (by decide) hoff32

/-- The tweak XORs byte `j` with byte `j` of the mask, and copies every byte past the mask (R145). -/
theorem getElem?_applyTweak (off : Nat) (y : List Byte) (j : Nat) :
    (applyTweak off y)[j]? = y[j]?.map (· ^^^ (tweakMask off).getD j 0x00#8) := by
  rcases Nat.lt_or_ge j y.length with hj | hj
  · rcases Nat.lt_or_ge j 16 with h16 | h16
    · simp [applyTweak, xorBytes, Config.blockBytes, List.getElem?_append, hj, h16]
    · simp [applyTweak, Config.blockBytes, List.getElem?_append, hj, h16,
        show min 16 y.length = 16 by omega, show 16 + (j - 16) = j by omega]
  · rw [List.getElem?_eq_none (by simpa), List.getElem?_eq_none hj, Option.map_none]

theorem getD_replicate_self (n j : Nat) (a : Byte) : (List.replicate n a).getD j a = a := by
  rw [List.getD_eq_getElem?_getD, List.getElem?_replicate]
  split <;> rfl

/-- The tweak at offset 0 is a no-op (R151). -/
@[simp] theorem applyTweak_zero (y : List Byte) : applyTweak 0 y = y := by
  have hmask : tweakMask 0 = List.replicate 16 0x00#8 := by decide
  refine List.ext_getElem? fun j => ?_
  rw [getElem?_applyTweak, hmask, getD_replicate_self]
  simp

/-- The tweak changes exactly the bytes where the mask is not 0. -/
theorem getElem?_applyTweak_ne {off j : Nat} {y : List Byte} (hj : j < y.length)
    (hmask : (tweakMask off).getD j 0x00#8 ≠ 0x00#8) : (applyTweak off y)[j]? ≠ y[j]? := by
  rw [getElem?_applyTweak, List.getElem?_eq_getElem hj, Option.map_some]
  simpa using hmask

/-- One of the bytes 1, 2, 3 of a later chunk's offset is not 0 (R151). -/
theorem exists_offsetByte_ne_zero {off : Nat} (h0 : off ≠ 0) (h4096 : off % 4096 = 0)
    (h31 : off < 2 ^ 31) :
    ∃ j, (j = 1 ∨ j = 2 ∨ j = 3) ∧ BitVec.ofNat 8 (off / 2 ^ (8 * j)) ≠ 0x00#8 := by
  by_contra hall
  have hbyte : ∀ j, (j = 1 ∨ j = 2 ∨ j = 3) → off / 2 ^ (8 * j) % 256 = 0 := fun j hj => by
    by_contra hne
    exact hall ⟨j, hj, fun h => hne (congrArg BitVec.toNat h)⟩
  have h1 := hbyte 1 (by decide)
  have h2 := hbyte 2 (by decide)
  have h3 := hbyte 3 (by decide)
  omega

/-- Settles O53: the mask at 0 is all zero; a later offset has a byte 1, 2 or 3 that is not 0, which
stands in the mask twice. -/
theorem tweakChangesEveryLaterChunk : Obligations.TweakChangesEveryLaterChunk := by
  refine ⟨applyTweak_zero, fun m y hm h31 hy => ?_⟩
  obtain ⟨j, hj, hbyte⟩ := exists_offsetByte_ne_zero (off := 4096 * m) (by omega) (by omega) h31
  have hmask : (tweakMask (4096 * m)).getD j 0x00#8 ≠ 0x00#8 := by
    rwa [getD_tweakMask _ (by omega), Nat.mod_eq_of_lt (by omega)]
  have hmask8 : (tweakMask (4096 * m)).getD (j + 8) 0x00#8 ≠ 0x00#8 := by
    rwa [getD_tweakMask _ (by omega), Nat.add_mod_right, Nat.mod_eq_of_lt (by omega)]
  refine ⟨fun h => hmask ?_, j, hj, getElem?_applyTweak_ne (by omega) hmask,
    getElem?_applyTweak_ne (by omega) hmask8⟩
  rw [h, getD_replicate_self]

/-! ### The transform chunk by chunk (R147, R148, R156) -/

/-- Settles O54: the cipher and the tweak keep the length of every chunk. -/
theorem transformKeepsTheLength : Obligations.TransformKeepsTheLength :=
  fun k iv _ _ hb => ⟨length_transformEnc k iv hb, length_transformDec k iv hb⟩

section Chunks

variable {f : List Byte → List Byte}
  (hf : ∀ x, x.length % 16 = 0 → (f x).length = x.length) {b : List Byte}
  (hb : b.length % 16 = 0)

include hf hb

/-- The first `4096 n` bytes of the output are its first `n` chunks. -/
theorem take_transform {n : Nat} (hn : n ≤ nChunks b.length) :
    (transform f b).take (4096 * n) =
      (List.range n).flatMap fun m => applyTweak (4096 * m) (f (chunk b m)) := by
  have hinit : ((List.range n).flatMap fun m => applyTweak (4096 * m) (f (chunk b m))) <+:
      transform f b := by
    rw [transform, ← Nat.add_sub_cancel' hn, List.range_add, List.flatMap_append]
    exact List.prefix_append ..
  rw [List.prefix_iff_eq_take.mp hinit, length_flatMap_applyTweak_chunk hf hb,
    ← length_transform hf hb, List.take_eq_take_iff]
  omega

/-- Chunk `m` of the output is the tweaked cipher output of chunk `m` of the input (R147, R148). -/
theorem chunk_transform {m : Nat} (hm : m < nChunks b.length) :
    chunk (transform f b) m = applyTweak (4096 * m) (f (chunk b m)) := by
  have hfull : 4096 * m ≤ b.length := by
    simp only [nChunks, Config.chunkBytes] at hm
    omega
  have hlen : ((List.range m).flatMap fun m => applyTweak (4096 * m) (f (chunk b m))).length =
      4096 * m := by
    rw [length_flatMap_applyTweak_chunk hf hb, Nat.min_eq_left hfull]
  calc chunk (transform f b) m
      = ((transform f b).take (4096 * (m + 1))).drop (4096 * m) := by
        rw [chunk, List.take_drop, Nat.mul_succ]
    _ = ((List.range m).flatMap (fun m => applyTweak (4096 * m) (f (chunk b m))) ++
          applyTweak (4096 * m) (f (chunk b m))).drop (4096 * m) := by
        rw [take_transform hf hb hm, List.range_succ, List.flatMap_append, List.flatMap_singleton]
    _ = applyTweak (4096 * m) (f (chunk b m)) := List.drop_left' hlen

end Chunks

/-- Whole blocks in, as many bytes out. -/
theorem length_cbcEnc_of_mod (k iv : Block) (x : List Byte) (hx : x.length % 16 = 0) :
    (cbcEnc k iv x).length = x.length := by
  rw [length_cbcEnc, Nat.mul_div_cancel' (Nat.dvd_of_mod_eq_zero hx)]

theorem length_cbcDec_of_mod (k iv : Block) (y : List Byte) (hy : y.length % 16 = 0) :
    (cbcDec k iv y).length = y.length := by
  rw [length_cbcDec, Nat.mul_div_cancel' (Nat.dvd_of_mod_eq_zero hy)]

/-- Chunk `m` of `TransformEnc` (R147). -/
theorem chunk_transformEnc (k iv : Block) {b : List Byte} (hb : b.length % 16 = 0) {m : Nat}
    (hm : m < nChunks b.length) :
    chunk (transformEnc k iv b) m = applyTweak (4096 * m) (cbcEnc k iv (chunk b m)) :=
  chunk_transform (length_cbcEnc_of_mod k iv) hb hm

/-- Chunk `m` of `TransformDec` (R148). -/
theorem chunk_transformDec (k iv : Block) {b : List Byte} (hb : b.length % 16 = 0) {m : Nat}
    (hm : m < nChunks b.length) :
    chunk (transformDec k iv b) m = applyTweak (4096 * m) (cbcDec k iv (chunk b m)) :=
  chunk_transform (length_cbcDec_of_mod k iv) hb hm

/-- Settles O55: the chunks before chunk `m` fill `4096 m` bytes of the output. -/
theorem transformActsChunkByChunk : Obligations.TransformActsChunkByChunk :=
  fun k iv => ⟨rfl, rfl, fun _ _ _ hb hm => ⟨chunk_transformEnc k iv hb hm,
    chunk_transformDec k iv hb hm, length_transformEnc k iv hb, length_transformDec k iv hb⟩⟩

/-! ### Up to one chunk (R152) -/

/-- Up to one chunk the transform is the cipher alone: one chunk, at offset 0. -/
theorem transform_of_length_le {f : List Byte → List Byte} (hnil : f [] = []) {b : List Byte}
    (hb : b.length ≤ 4096) : transform f b = f b := by
  rcases b.length.eq_zero_or_pos with hzero | hpos
  · rw [List.eq_nil_of_length_eq_zero hzero, hnil]
    rfl
  · have hone : nChunks b.length = 1 := by
      simp only [nChunks, Config.chunkBytes]
      omega
    have hchunk : chunk b 0 = b := List.take_of_length_le hb
    rw [transform, hone, List.range_one, List.flatMap_singleton, Nat.mul_zero, applyTweak_zero,
      hchunk]

theorem transformEnc_of_length_le (k iv : Block) {b : List Byte} (hb : b.length ≤ 4096) :
    transformEnc k iv b = cbcEnc k iv b := transform_of_length_le rfl hb

theorem transformDec_of_length_le (k iv : Block) {b : List Byte} (hb : b.length ≤ 4096) :
    transformDec k iv b = cbcDec k iv b := transform_of_length_le rfl hb

/-- Settles O56: both paths are plain CBC there, which undoes itself. -/
theorem singleChunkRoundTrip : Obligations.SingleChunkRoundTrip := by
  intro k iv b hb h16
  have henc := transformEnc_of_length_le k iv hb
  have hdec := transformDec_of_length_le k iv hb
  refine ⟨?_, ?_, henc, hdec⟩
  · rw [transformDec_of_length_le k iv (by rwa [length_transformEnc k iv h16]), henc,
      cbcDec_cbcEnc k iv h16]
  · rw [transformEnc_of_length_le k iv (by rwa [length_transformDec k iv h16]), hdec,
      cbcEnc_cbcDec k iv h16]

/-! ### The three outcomes of ENC and DEC (R149, R150) -/

section Commands

variable {i : Instr} (hi : i = .enc ∨ i = .dec) {s : State}

include hi

/-- The lengths a cipher command accepts under MULTI_CHUNK = compute-and-flag (00_scope.md R9). -/
theorem State.lenOk_cipher_iff (hmc : s.platform.multiChunk = .computeAndFlag) :
    s.lenOk i = true ↔ s.len.toNat ≤ 0x7FFFFFFF ∧ s.len.toNat % 16 = 0 := by
  have hlen : s.lenOk i = cipherLenOk s.platform s.len.toNat := by rcases hi with rfl | rfl <;> rfl
  rw [hlen, cipherLenOk_iff, and_iff_left (.inl hmc)]

/-- A cipher command needs both its read range and its write range. -/
theorem State.rangesOk_cipher_iff :
    s.rangesOk i = true ↔ memAdmit s.platform s.src.toNat s.len.toNat = true ∧
      memAdmit s.platform s.dst.toNat s.len.toNat = true := by
  rcases hi with rfl | rfl <;> exact Bool.and_eq_true_iff

/-- A cipher command changes memory and STATUS only, and STATUS tells one chunk from several. -/
theorem State.effect_cipher :
    s.effect i = { s with
      mem := (s.effect i).mem
      status := if 4096 < s.len.toNat then 0x00000005#32 else 0x00000001#32 } := by
  rcases hi with rfl | rfl <;> rfl

/-- A byte of memory after a cipher command whose checks pass: the output's in the LEN bytes at DST,
the old one elsewhere. -/
theorem State.get_effect_cipher (hwf : Memory.wf s.mem = true) (hl : s.lenOk i = true)
    (ha : s.rangesOk i = true) (x : Nat) :
    Memory.get (s.effect i).mem x =
      if s.dst.toNat ≤ x ∧ x < s.dst.toNat + s.len.toNat then
        (s.outBytes i).getD (x - s.dst.toNat) 0#8
      else Memory.get s.mem x := by
  have hfoot : writeFootprint i s x ↔ s.dst.toNat ≤ x ∧ x < s.dst.toNat + s.len.toNat := by
    rcases hi with rfl | rfl <;> exact Iff.rfl
  have haddr : s.outAddr i = s.dst := by rcases hi with rfl | rfl <;> rfl
  split_ifs with hx
  · rw [State.get_effect_written hwf hl ha (hfoot.mpr hx), haddr]
  · exact State.get_effect_frame hwf hl ha (mt hfoot.mp hx)

variable (hmc : s.platform.multiChunk = .computeAndFlag)

include hmc

/-- Completion: the output at DST, every other byte as it was. -/
theorem exec_cipher_completes (hwf : Memory.wf s.mem = true) (hmax : s.len.toNat ≤ 0x7FFFFFFF)
    (h16 : s.len.toNat % 16 = 0) (hsrc : memAdmit s.platform s.src.toNat s.len.toNat = true)
    (hdst : memAdmit s.platform s.dst.toNat s.len.toNat = true) :
    ∃ m : Memory,
      exec i s = .next { s with
        mem := m, status := if 4096 < s.len.toNat then 0x00000005#32 else 0x00000001#32 } ∧
      ∀ x, Memory.get m x =
        if s.dst.toNat ≤ x ∧ x < s.dst.toNat + s.len.toNat then
          (s.outBytes i).getD (x - s.dst.toNat) 0#8
        else Memory.get s.mem x := by
  have hl := (State.lenOk_cipher_iff hi hmc).mpr ⟨hmax, h16⟩
  have ha := (State.rangesOk_cipher_iff hi).mpr ⟨hsrc, hdst⟩
  exact ⟨_, (exec_completes hl ha).trans (congrArg _ (State.effect_cipher hi)),
    State.get_effect_cipher hi hwf hl ha⟩

/-- A length that is too long or not a multiple of 16 is BAD_LEN. -/
theorem exec_cipher_badLen (h : 0x7FFFFFFF < s.len.toNat ∨ s.len.toNat % 16 ≠ 0) :
    exec i s = .next { s with status := 0x00000202#32 } :=
  exec_badLen (Bool.eq_false_iff.mpr (mt (State.lenOk_cipher_iff hi hmc).mp (by omega)))

/-- An acceptable length with either range not admitted is BUS. -/
theorem exec_cipher_bus (hmax : s.len.toNat ≤ 0x7FFFFFFF) (h16 : s.len.toNat % 16 = 0)
    (h : memAdmit s.platform s.src.toNat s.len.toNat = false ∨
      memAdmit s.platform s.dst.toNat s.len.toNat = false) :
    exec i s = .next { s with status := 0x00000302#32 } := by
  refine exec_bus ((State.lenOk_cipher_iff hi hmc).mpr ⟨hmax, h16⟩) (Bool.eq_false_iff.mpr ?_)
  rw [Ne, State.rangesOk_cipher_iff hi]
  rintro ⟨hsrc, hdst⟩
  simp [hsrc, hdst] at h

end Commands

/-- Settles O7: each outcome of ENC is one of the three outcomes of a cipher command, with
`TransformEnc` of the input as its output. -/
theorem encWritesTheEncryptedInput : Obligations.EncWritesTheEncryptedInput := by
  refine ⟨rfl, fun s hwf hmc => ⟨fun hmax h16 hsrc hdst => ?_, exec_cipher_badLen (.inl rfl) hmc,
    exec_cipher_bus (.inl rfl) hmc⟩⟩
  simp only [← Memory.read_eq_map]
  exact exec_cipher_completes (.inl rfl) hmc hwf hmax h16 hsrc hdst

/-- Settles O8: as for ENC, with `TransformDec` of the input as the output. -/
theorem decWritesTheDecryptedInput : Obligations.DecWritesTheDecryptedInput := by
  refine ⟨rfl, fun s hwf hmc => ⟨fun hmax h16 hsrc hdst => ?_, exec_cipher_badLen (.inr rfl) hmc,
    exec_cipher_bus (.inr rfl) hmc⟩⟩
  simp only [← Memory.read_eq_map]
  exact exec_cipher_completes (.inr rfl) hmc hwf hmax h16 hsrc hdst

end Sys2Proof.Machine
end

section
/-! Exceptions family (60_exceptions.md R171 to R176): a CMD write reports the first error that applies, and an error is visible in STATUS only. -/

namespace Sys2Proof.Machine

/-! ### The three checks of a command, and STATUS at completion (R173, R178) -/

/-- Different commands have different words (30_encoding.md R71). -/
theorem encode_eq_encode_iff {i j : Instr} : encode i = encode j ↔ i = j :=
  ⟨fun h => Except.ok.inj ((decode_eq_ok_iff.mpr rfl).symm.trans (decode_eq_ok_iff.mpr h)),
    congrArg encode⟩

/-- A word that is not illegal is a command's word (30_encoding.md R73). -/
theorem exists_eq_encode {v : Word} (h : ¬(v ≠ 0x00000001#32 ∧ v ≠ 0x00000002#32 ∧
    v ≠ 0x00000010#32 ∧ v ≠ 0x00000011#32)) : ∃ i : Instr, v = encode i := by
  by_contra hnone
  rw [not_exists] at hnone
  exact h ⟨hnone .crc32, hnone .crcstamp, hnone .enc, hnone .dec⟩

/-- The write to CMD of a command's word executes that command. -/
theorem State.writeCommand_encode (i : Instr) (s : State) : s.writeCommand (encode i) = exec i s := by
  rw [State.writeCommand, decode_eq_ok_iff.mpr rfl]

/-- The lengths that are BAD_LEN under MULTI_CHUNK = compute-and-flag, for every command at once. -/
theorem State.lenOk_eq_false_iff {i : Instr} {s : State}
    (hmc : s.platform.multiChunk = .computeAndFlag) :
    s.lenOk i = false ↔ 0x7FFFFFFF < s.len.toNat ∨ (i = .crcstamp ∧ s.len.toNat < 4) ∨
      ((i = .enc ∨ i = .dec) ∧ s.len.toNat % 16 ≠ 0) := by
  rw [← Bool.not_eq_true]
  cases i with
  | crc32 => simp [State.lenOk, crc32LenOk_iff]
  | crcstamp =>
    rw [State.lenOk, crcstampLenOk_iff, not_and_or]
    simp
  | enc | dec =>
    rw [State.lenOk_cipher_iff (by simp) hmc, not_and_or]
    simp

/-- The ranges that are BUS: every command needs its read range, a cipher command its write range too. -/
theorem State.rangesOk_eq_false_iff {i : Instr} {s : State} :
    s.rangesOk i = false ↔ memAdmit s.platform s.src.toNat s.len.toNat = false ∨
      ((i = .enc ∨ i = .dec) ∧ memAdmit s.platform s.dst.toNat s.len.toNat = false) := by
  cases i with
  | crc32 | crcstamp => simp [State.rangesOk, State.admits]
  | enc | dec => simp only [State.rangesOk, State.admits, Bool.and_eq_false_iff, reduceCtorEq,
      true_or, or_true, true_and]

/-- STATUS of a completed command tells a cipher command over several chunks from every other. -/
theorem State.effect_status (i : Instr) (s : State) :
    (s.effect i).status =
      if (i = .enc ∨ i = .dec) ∧ 4096 < s.len.toNat then 0x00000005#32 else 0x00000001#32 := by
  cases i with
  | crc32 | crcstamp => rfl
  | enc | dec => simp [State.effect, State.cipherEffect, cipherStatus, Config.chunkBytes, statusOk,
      statusOkMulti]

/-- Every command answers a next state, whose STATUS is BAD_LEN, else BUS, else the completion's
(R175). -/
theorem exec_status (i : Instr) (s : State) :
    ∃ t : State, exec i s = .next t ∧ t.status =
      if s.lenOk i = false then 0x00000202#32
      else if s.rangesOk i = false then 0x00000302#32
      else (s.effect i).status := by
  split_ifs with hl ha
  · exact ⟨_, exec_badLen hl, rfl⟩
  · exact ⟨_, exec_bus (Bool.eq_true_of_not_eq_false hl) ha, rfl⟩
  · exact ⟨_, exec_completes (Bool.eq_true_of_not_eq_false hl) (Bool.eq_true_of_not_eq_false ha),
      rfl⟩

/-- Settles O10: an illegal word is ILLEGAL_CMD whatever the operands hold; any other word is a
command's, which checks its length, then its ranges. -/
theorem commandReportsTheFirstError : Obligations.CommandReportsTheFirstError := by
  intro s v hmc
  by_cases hillegal : v ≠ 0x00000001#32 ∧ v ≠ 0x00000002#32 ∧ v ≠ 0x00000010#32 ∧ v ≠ 0x00000011#32
  · obtain ⟨hcrc32, hcrcstamp, henc, hdec⟩ := hillegal
    exact ⟨_, illegalCommandWordSetsStatusOnly s v hcrc32 hcrcstamp henc hdec,
      (if_pos ⟨hcrc32, hcrcstamp, henc, hdec⟩).symm⟩
  · obtain ⟨i, rfl⟩ := exists_eq_encode hillegal
    obtain ⟨t, ht, hstatus⟩ := exec_status i s
    have hstamp : encode i = 0x00000002#32 ↔ i = .crcstamp := encode_eq_encode_iff (j := .crcstamp)
    have henc : encode i = 0x00000010#32 ↔ i = .enc := encode_eq_encode_iff (j := .enc)
    have hdec : encode i = 0x00000011#32 ↔ i = .dec := encode_eq_encode_iff (j := .dec)
    refine ⟨t, (State.writeCommand_encode i s).trans ht, ?_⟩
    rw [if_neg hillegal, hstatus]
    simp only [State.lenOk_eq_false_iff hmc, State.rangesOk_eq_false_iff, State.effect_status,
      hstamp, henc, hdec]

/-! ### What an error leaves (R176) -/

/-- What a CMD write leaves: an error visible in STATUS only, or the effect of the command it wrote. -/
theorem State.writeCommand_raise_or_effect {s t : State} {v : Word}
    (h : s.writeCommand v = .next t) :
    (∃ e, t = s.raise e) ∨ ∃ i, decode v = .ok i ∧ t = s.effect i := by
  rcases State.writeCommand_cases h with ⟨i, hi, hexec⟩ | ⟨_, -, rfl⟩
  · rw [exec_eq_command] at hexec
    rcases State.command_cases hexec with ⟨-, rfl⟩ | ⟨-, -, rfl⟩ | ⟨-, -, rfl⟩
    · exact .inl ⟨.badLen, rfl⟩
    · exact .inl ⟨.bus, rfl⟩
    · exact .inr ⟨i, hi, rfl⟩
  · exact .inl ⟨.illegalCmd, rfl⟩

/-- STATUS after an error: ERR with the code in ECODE, and neither OK nor MC. -/
theorem statusError_fields (e : ErrorCode) :
    ∃ code : BitVec 4, (code = 1#4 ∨ code = 2#4 ∨ code = 3#4) ∧
      statusError e = 0x00000002#32 ||| code.setWidth 32 <<< 8 ∧
      statusOkBit (statusError e) = false ∧ statusMcBit (statusError e) = false ∧
      statusEcode (statusError e) = code := by
  cases e with
  | illegalCmd => exact ⟨1#4, by decide⟩
  | badLen => exact ⟨2#4, by decide⟩
  | bus => exact ⟨3#4, by decide⟩

/-- Settles O11: a command's effect leaves ERR clear, so the CMD write raised an error, and raising
one writes STATUS alone. -/
theorem anErrorChangesStatusOnly : Obligations.AnErrorChangesStatusOnly := by
  intro s t v h herr
  rcases State.writeCommand_raise_or_effect h with ⟨e, rfl⟩ | ⟨i, -, rfl⟩
  · obtain ⟨code, hcode, hstatus, hfields⟩ := statusError_fields e
    exact ⟨code, hcode, congrArg s.withStatus hstatus, hfields⟩
  · exact absurd herr (by rw [State.effect_statusErrBit]; decide)

end Sys2Proof.Machine
end

section
/-! Command frames and repetition (10_state.md section 3, 20_memory.md section 3, 40_crc.md section 4): what each command leaves unchanged, the fields of STATUS, what a command run again does, and the checksum of a record. -/

namespace Sys2Proof.Machine

/-! ### What a command leaves unchanged (60_exceptions.md R175, R176; 20_memory.md R59) -/

/-- A command raises an error, or its checks pass and it has its effect (R175). -/
theorem exec_raise_or_effect {i : Instr} {s t : State} (h : exec i s = .next t) :
    (∃ e, t = s.raise e) ∨ (s.lenOk i = true ∧ s.rangesOk i = true ∧ t = s.effect i) := by
  rw [exec_eq_command] at h
  rcases State.command_cases h with ⟨-, ht⟩ | ⟨-, -, ht⟩ | hok
  · exact .inl ⟨_, ht⟩
  · exact .inl ⟨_, ht⟩
  · exact .inr hok

/-- A completed command changes memory, RESULT and STATUS only. -/
theorem State.effect_eq (i : Instr) (s : State) :
    s.effect i = { s with
      mem := (s.effect i).mem
      result := (s.effect i).result
      status := (s.effect i).status } := by
  cases i <;> rfl

/-- ENC and DEC leave RESULT (42_cipher.md R149, R150). -/
theorem State.effect_result_of_cipher {i : Instr} (hi : i = .enc ∨ i = .dec) (s : State) :
    (s.effect i).result = s.result := by
  rcases hi with rfl | rfl <;> rfl

/-- The registers a completed command leaves: all but STATUS and, for a checksum command, RESULT. -/
theorem State.readReg_effect {i : Instr} {r : Reg} (hstatus : r ≠ .status)
    (hresult : r = .result → i = .enc ∨ i = .dec) (s : State) :
    (s.effect i).readReg r = s.readReg r := by
  by_cases hr : r = .result
  · rw [hr]
    exact State.effect_result_of_cipher (hresult hr) s
  · rw [State.effect_eq]
    cases r <;> simp_all [State.readReg]

/-- A command leaves every register but STATUS and, for a checksum command, RESULT. -/
theorem exec_readReg {i : Instr} {s t : State} (h : exec i s = .next t) {r : Reg}
    (hstatus : r ≠ .status) (hresult : r = .result → i = .enc ∨ i = .dec) :
    t.readReg r = s.readReg r := by
  rcases exec_raise_or_effect h with ⟨e, rfl⟩ | ⟨-, -, rfl⟩
  · exact State.readReg_raise s e r hstatus
  · exact State.readReg_effect hstatus hresult s

/-- A command leaves every byte outside its write range (R59). -/
theorem exec_get_mem {i : Instr} {s t : State} (hwf : Memory.wf s.mem = true)
    (h : exec i s = .next t) {x : Nat} (hx : ¬writeFootprint i s x) :
    Memory.get t.mem x = Memory.get s.mem x := by
  rcases exec_raise_or_effect h with ⟨e, rfl⟩ | ⟨hl, ha, rfl⟩
  · rfl
  · exact State.get_effect_frame hwf hl ha hx

/-- No command touches the platform, the host's queue or its readings. -/
theorem exec_sameSurroundings {i : Instr} {s t : State} (h : exec i s = .next t) :
    sameSurroundings s t := by
  rcases exec_raise_or_effect h with ⟨e, rfl⟩ | ⟨-, -, rfl⟩
  · exact ⟨rfl, rfl, rfl⟩
  · rw [State.effect_eq]
    exact ⟨rfl, rfl, rfl⟩

/-- Settles O13: CRC32 stores no byte at all, and a checksum command leaves every register but two. -/
theorem crc32Frame : Obligations.Crc32Frame := by
  intro s t h
  refine ⟨fun r hresult hstatus => exec_readReg h hstatus (absurd · hresult), fun x => ?_,
    exec_sameSurroundings h⟩
  rcases exec_raise_or_effect h with ⟨e, rfl⟩ | ⟨-, -, rfl⟩ <;> rfl

/-- Settles O14: the write range of CRCSTAMP is the four bytes at SRC. -/
theorem crcstampFrame : Obligations.CrcstampFrame := fun _ _ hwf h =>
  ⟨fun _ hresult hstatus => exec_readReg h hstatus (absurd · hresult),
    fun _ hx => exec_get_mem hwf h hx, exec_sameSurroundings h⟩

/-- Settles O15: the write range of a cipher command is the LEN bytes at DST, and it leaves RESULT. -/
theorem cipherFrame : Obligations.CipherFrame := by
  intro i s t hi hwf h
  refine ⟨fun r hstatus => exec_readReg h hstatus fun _ => hi, fun x hx => exec_get_mem hwf h ?_,
    exec_sameSurroundings h⟩
  rcases hi with rfl | rfl <;> exact hx

/-! ### The stricter MULTI_CHUNK (92_eei_decisions.md D16), and the fields of STATUS (10_state.md R29) -/

/-- A cipher command depends on the platform through its two checks only. -/
theorem exec_cipher_of_platform {i : Instr} (hi : i = .enc ∨ i = .dec) {s : State} {p : Platform}
    (hlen : cipherLenOk p s.len.toNat = cipherLenOk s.platform s.len.toNat)
    (hadmit : ∀ a n, memAdmit p a n = memAdmit s.platform a n) :
    ∃ u, exec i { s with platform := p } = .next u ∧
      exec i s = .next { u with platform := s.platform } := by
  have hlenOk : State.lenOk i { s with platform := p } = s.lenOk i := by
    rcases hi with rfl | rfl <;> exact hlen
  have hranges : State.rangesOk i { s with platform := p } = s.rangesOk i := by
    rcases hi with rfl | rfl <;> simp only [State.rangesOk, State.admits, hadmit]
  rw [exec_eq_command, exec_eq_command, hlenOk, hranges]
  cases s.lenOk i with
  | false => exact ⟨_, rfl, rfl⟩
  | true =>
    cases s.rangesOk i with
    | false => exact ⟨_, rfl, rfl⟩
    | true => exact ⟨_, rfl, by rcases hi with rfl | rfl <;> rfl⟩

/-- Settles O9: more than one chunk fails the length check; up to one chunk no check depends on
MULTI_CHUNK. -/
theorem stricterMultiChunkRefusesMoreChunks : Obligations.StricterMultiChunkRefusesMoreChunks := by
  intro i s hi hmc
  refine ⟨fun hlong => exec_badLen ?_, fun hshort => exec_cipher_of_platform hi ?_ fun _ _ => rfl⟩
  · have hlenOk : s.lenOk i = cipherLenOk s.platform s.len.toNat := by
      rcases hi with rfl | rfl <;> rfl
    rw [hlenOk, ← Bool.not_eq_true, cipherLenOk_iff, hmc]
    rintro ⟨-, hdefault | hshort⟩
    · exact nomatch hdefault
    · omega
  · rw [Bool.eq_iff_iff, cipherLenOk_iff, cipherLenOk_iff]
    simp only [hshort, or_true]

/-- Settles O12: an error has its fields from its code; a completed command leaves STATUS 1 or 5. -/
theorem statusDescribesTheLastCommand : Obligations.StatusDescribesTheLastCommand := by
  intro s t v h
  rcases State.writeCommand_raise_or_effect h with ⟨e, rfl⟩ | ⟨i, hi, rfl⟩
  · have hok := statusOkBit_statusError e
    have hfields : statusErrBit (statusError e) = true ∧ statusMcBit (statusError e) = false ∧
        statusEcode (statusError e) ≠ 0#4 ∧ statusReserved (statusError e) = 0#32 := by
      cases e <;> decide
    obtain ⟨herr, hmc, hecode, hreserved⟩ := hfields
    simp [hok, herr, hmc, hecode, hreserved]
  · have hmulti : (decode v = .ok .enc ∨ decode v = .ok .dec) ↔ i = .enc ∨ i = .dec := by simp [hi]
    rw [hmulti, State.effect_status]
    split_ifs with hmc
    · simp only [hmc, and_self, and_true]
      decide
    · simp only [hmc, and_false, iff_false]
      decide

/-! ### A command run again (20_memory.md R62) -/

/-- Two states that differ in memory, RESULT and STATUS only have the same operands. -/
theorem SameOperands.of_exec {i : Instr} {s t : State} (h : exec i s = .next t) : SameOperands s t :=
  .of_readReg (fun _ hresult hstatus => (exec_readReg h hstatus (absurd · hresult)).symm)
    (exec_sameSurroundings h).1.symm

/-- Bytes that stand in memory already are written to no effect (R54). -/
theorem Memory.write_write_same {m : Memory} (h : Memory.wf m = true) {a : Nat} {bs : List Byte}
    (ha : a + bs.length ≤ Config.addrLimit) :
    Memory.write (Memory.write m a bs) a bs = Memory.write m a bs := by
  have hwf := Memory.wf_write h a bs ha
  refine Memory.ext (Memory.wf_write hwf a bs ha) hwf fun x => ?_
  rw [Memory.get_write hwf ha, Memory.get_write h ha]
  split_ifs <;> rfl

/-- A command that reads no byte it writes has its effect once and for all. -/
theorem State.effect_effect {i : Instr} {s : State} (hwf : Memory.wf s.mem = true)
    (hl : s.lenOk i = true) (ha : s.rangesOk i = true)
    (hdisjoint : ∀ x, readFootprint i s x → ¬writeFootprint i s x) :
    (s.effect i).effect i = s.effect i := by
  have hops : SameOperands s (s.effect i) := .of_exec (exec_completes hl ha)
  have hread : ∀ x, readFootprint i s x → Memory.get s.mem x = Memory.get (s.effect i).mem x :=
    fun x hx => (State.get_effect_frame hwf hl ha (hdisjoint x hx)).symm
  have hmem : ((s.effect i).effect i).mem = (s.effect i).mem := by
    rw [State.effect_mem i (s.effect i), ← hops.outAddr_eq, ← hops.outBytes_eq hread,
      State.effect_mem, Memory.write_write_same hwf (State.outBytes_bound hl ha)]
  have hresult : ((s.effect i).effect i).result = (s.effect i).result := by
    cases i with
    | crc32 => exact (hops.effect_result_eq hread (.inl rfl)).symm
    | crcstamp => exact (hops.effect_result_eq hread (.inr rfl)).symm
    | enc | dec => rfl
  rw [State.effect_eq i (s.effect i), hmem, hresult, ← hops.effect_status_eq]

/-- Settles O17: an error comes again from the same operands; a completed command finds its read range
as it was, since it wrote none of it. -/
theorem repeatedCommandsChangeNothing : Obligations.RepeatedCommandsChangeNothing := by
  intro i s t hwf h hdisjoint
  have hops := SameOperands.of_exec h
  rw [exec_eq_command, ← hops.lenOk_eq, ← hops.rangesOk_eq]
  rw [exec_eq_command] at h
  rcases State.command_cases h with ⟨hl, rfl⟩ | ⟨hl, ha, rfl⟩ | ⟨hl, ha, rfl⟩
  · rw [hl]
    rfl
  · rw [hl, ha]
    rfl
  · rw [State.command_ok hl ha, State.effect_effect hwf hl ha]
    rintro x hread hwrite
    cases i with
    | crc32 => exact hwrite
    | crcstamp =>
      obtain ⟨hle, -⟩ := hread
      exact absurd hwrite.2 (Nat.not_lt.mpr hle)
    | enc | dec =>
      obtain ⟨hsrc, hsrc'⟩ := hread
      obtain ⟨hdst, hdst'⟩ := hwrite
      have := hdisjoint (by simp)
      omega

/-! ### The checksum of a record (40_crc.md R98, R99) -/

/-- MemRead of a range is MemRead of its two parts (20_memory.md R53). -/
theorem Memory.read_add (m : Memory) (a k n : Nat) :
    Memory.read m a (k + n) = Memory.read m a k ++ Memory.read m (a + k) n := by
  induction k generalizing a with
  | zero => rw [Nat.zero_add]; rfl
  | succ k ih =>
    rw [Nat.succ_add, Memory.read, ih, Nat.add_assoc, Nat.add_comm 1]
    rfl

/-- A record in memory is checksum-valid when its first four bytes are the checksum of the rest. -/
theorem checksumValid_read_iff (m : Memory) (a n : Nat) :
    checksumValid (Memory.read m a (4 + n)) = true ↔
      unle32 (Memory.read m a 4) = crc32 (Memory.read m (a + 4) n) := by
  have h4 : (Memory.read m a 4).length = 4 := Memory.length_read ..
  rw [checksumValid, Memory.read_add, List.take_left' h4, List.drop_left' h4]
  simp

/-- MemRead of bytes just written returns them (20_memory.md R53, R54). -/
theorem Memory.read_write_same {m : Memory} (h : Memory.wf m = true) {a : Nat} {bs : List Byte}
    (ha : a + bs.length ≤ Config.addrLimit) :
    Memory.read (Memory.write m a bs) a bs.length = bs := by
  refine List.ext_getElem (Memory.length_read ..) fun j hj hj' => ?_
  rw [List.getElem_eq_getD 0#8, Memory.getD_read hj', Memory.get_write h ha, if_pos (by omega),
    Nat.add_sub_cancel_left, List.getElem_eq_getD]

/-- Settles O18: CRCSTAMP stores the checksum of the span it does not write. -/
theorem crcstampMakesTheRecordValid : Obligations.CrcstampMakesTheRecordValid := by
  intro s t hwf h hok m hm
  rcases exec_raise_or_effect h with ⟨e, rfl⟩ | ⟨hl, ha, rfl⟩
  · rw [State.raise_status, statusOkBit_statusError] at hok
    cases hok
  · obtain ⟨-, h4⟩ := (crcstampLenOk_iff _).mp hl
    have hlen : s.len.toNat = 4 + (s.len.toNat - 4) := by omega
    have hfield : Memory.read (s.effect .crcstamp).mem s.src.toNat 4 = le32 (crc32 s.stampSpan) :=
      Memory.read_write_same hwf (State.outBytes_bound hl ha)
    have hspan : s.stampSpan = (s.effect .crcstamp).stampSpan :=
      (SameOperands.of_exec h).stampSpan_eq fun x hx =>
        (exec_get_mem hwf h fun hx' => absurd hx'.2 (Nat.not_lt.mpr hx.1)).symm
    rw [Memory.read_congr hm, hlen, checksumValid_read_iff, hfield, unle32_le32, hspan]
    rfl

/-- Settles O19: CRC32 over the record without its first four bytes is the checksum R98 compares. -/
theorem crc32VerifiesARecord : Obligations.Crc32VerifiesARecord := by
  intro s t hsrc h hok
  rcases exec_raise_or_effect h with ⟨e, rfl⟩ | ⟨-, -, rfl⟩
  · rw [State.raise_status, statusOkBit_statusError] at hok
    cases hok
  · have hresult : (s.effect .crc32).result = crc32 (Memory.read s.mem s.src.toNat s.len.toNat) := rfl
    rw [Nat.add_comm, checksumValid_read_iff, Nat.sub_add_cancel hsrc, hresult, eq_comm]

end Sys2Proof.Machine
end

section
/-! Step family (10_state.md sections 1 to 8, 20_memory.md section 4, 60_exceptions.md sections 6 and 7, 70_reset_and_hazards.md): the invariant, what each action keeps, which register an action changes, and which steps stop. -/

namespace Sys2Proof.Machine

/-! ### The register file under the updates of an action -/

@[simp] theorem State.readReg_withPending (s : State) (q : List Action) (r : Reg) :
    (s.withPending q).readReg r = s.readReg r := by cases r <;> rfl

@[simp] theorem State.readReg_withMem (s : State) (m : Memory) (r : Reg) :
    (s.withMem m).readReg r = s.readReg r := by cases r <;> rfl

@[simp] theorem State.readReg_record (s : State) (x : Reading) (r : Reg) :
    (s.record x).readReg r = s.readReg r := by cases r <;> rfl

/-! ### The register map (10_state.md R36) -/

/-- The offset the decoder of addresses finds a register at is the register's own. -/
theorem regOffset_of_regAtOffset {n : Nat} {r : Reg} (h : regAtOffset n = some r) :
    n = regOffset r := by
  unfold regAtOffset at h
  split at h <;> cases h <;> rfl

/-- The printed table lists each register at its offset, and nothing else. -/
theorem mem_registerTable_iff {off : Nat} {r : Reg} :
    (off, r) ∈ registerTable ↔ off = regOffset r := by
  cases r <;> simp [registerTable, regOffset]

/-- An access reaches a register exactly when it is a word access at the register's address. -/
theorem State.accessReg_eq_ok_iff {s : State} {addr : Nat} {w : Width} {r : Reg} :
    s.accessReg addr w = .ok r ↔ w = .word ∧ addr = regAddr s.platform r := by
  refine ⟨fun h => ?_, fun ⟨hw, haddr⟩ => by rw [hw, haddr, State.accessReg_regAddr]⟩
  unfold State.accessReg at h
  split_ifs at h with hw hbelow habove halign
  split at h
  next q hq =>
    cases h
    rw [regAtAddr, if_neg hbelow] at hq
    have hoff := regOffset_of_regAtOffset hq
    exact ⟨not_not.mp hw, by rw [regAddr]; omega⟩
  next => cases h

/-- The accesses the table lists, as the claims say it: a word access at a listed offset. -/
theorem State.accessReg_isError_iff {s : State} {addr : Nat} {w : Width} :
    (∃ e, s.accessReg addr w = .error e) ↔
      w ≠ .word ∨ ∀ off r, (off, r) ∈ registerTable → addr ≠ s.platform.regBase + off := by
  have hok : (∀ r, s.accessReg addr w ≠ .ok r) ↔
      w ≠ .word ∨ ∀ off r, (off, r) ∈ registerTable → addr ≠ s.platform.regBase + off := by
    simp only [ne_eq, State.accessReg_eq_ok_iff, not_and, mem_registerTable_iff]
    exact ⟨fun h => or_iff_not_imp_left.mpr fun hw _ r hoff => hoff ▸ h r (not_not.mp hw),
      fun h r hw => h.resolve_left (not_not.mpr hw) _ r rfl⟩
  rw [← hok]
  cases s.accessReg addr w <;> simp

/-! ### One step of a host line (30_encoding.md R80) -/

section Lines

variable {s : State} {rest : List Action} {r : Reg} {v : Word}

/-- A step at a write of a register other than CMD writes that register. -/
theorem step_wr (hr : r ≠ .cmd) (hp : s.pending = encodeLine s.platform (.wr r v) :: rest) :
    step s = .next ((s.withPending rest).writeReg r v) :=
  (step_cons hp).trans (State.perform_wr hr (s.withPending rest) v)

/-- A step at a write of CMD starts the command the word encodes. -/
theorem step_wr_cmd (hp : s.pending = encodeLine s.platform (.wr .cmd v) :: rest) :
    step s = (s.withPending rest).writeCommand v :=
  (step_cons hp).trans (State.perform_wr_cmd (s.withPending rest) v)

/-- A step at a read of a register hands it to the host. -/
theorem step_rd (hp : s.pending = encodeLine s.platform (.rd r) :: rest) :
    step s = .next ((s.withPending rest).record (.reg (s.readReg r))) := by
  rw [step_cons hp, ← State.readReg_withPending s rest r]
  exact State.perform_rd (s.withPending rest) r

end Lines

/-- Settles O2: four of the words are command words; the decoder rejects the others by evaluation. -/
theorem specCommandWordsDecode : Obligations.SpecCommandWordsDecode :=
  ⟨decode_eq_ok_iff.mpr rfl, decode_eq_ok_iff.mpr rfl, decode_eq_ok_iff.mpr rfl,
    decode_eq_ok_iff.mpr rfl, rfl, rfl, rfl, rfl, rfl, rfl⟩

/-- Settles O3: CMD stands at REG_BASE itself, so each action is a line on CMD. -/
theorem cmdWriteRunsTheDecodedCommand : Obligations.CmdWriteRunsTheDecodedCommand := by
  refine ⟨fun s rest v i hp hi => ?_, fun s rest v hp hillegal => ?_,
    fun s rest hp => step_rd (r := .cmd) hp⟩
  · rw [step_wr_cmd hp, State.writeCommand, hi]
    rfl
  · rw [step_wr_cmd hp, State.writeCommand_illegal hillegal]
    rfl

/-- Settles O22: the write reaches the register at its offset and stores into it alone. -/
theorem operandRegisterStoresEveryValue : Obligations.OperandRegisterStoresEveryValue := by
  intro s rest off r v hoff hr hp
  obtain rfl := mem_registerTable_iff.mp hoff
  refine ⟨_, step_wr hr.1 hp, State.readReg_writeReg_same _ r v hr, fun q hq => ?_, ?_, ?_, ?_, ?_⟩
  · rw [State.readReg_writeReg_other _ r q v hq, State.readReg_withPending]
  all_goals simp

/-- Settles O23: offsets 0x04 and 0x14 are STATUS and RESULT, whose host writes store nothing. -/
theorem statusAndResultIgnoreHostWrites : Obligations.StatusAndResultIgnoreHostWrites := by
  rintro s rest off v (rfl | rfl) hp
  · exact step_wr (r := .status) nofun hp
  · exact step_wr (r := .result) nofun hp

/-- Settles O24: each listed offset is the register's own, so the access is the line `rd`. -/
theorem registerReadReturnsItsValue : Obligations.RegisterReadReturnsItsValue := by
  intro s rest off r hoff hp
  obtain rfl := mem_registerTable_iff.mp hoff
  exact step_rd hp

/-! ### Host stores and loads (10_state.md R38, 30_encoding.md R80) -/

/-- A host access needs each of its bytes admitted by itself. -/
theorem State.hostMay_iff {s : State} {a n : Nat} :
    s.hostMay a n = true ↔ ∀ j, j < n → memAdmit s.platform (a + j) 1 = true := by
  simp [State.hostMay, State.admits]

/-- A host access that is allowed does not pass 2^32. -/
theorem State.hostMay_bound {s : State} {a : Word} {n : Nat} (h : s.hostMay a.toNat n = true) :
    a.toNat + n ≤ Config.addrLimit := by
  rcases Nat.eq_zero_or_pos n with rfl | hn
  · exact Nat.le_of_lt a.isLt
  · have hlast := State.hostMay_iff.mp h (n - 1) (by omega)
    obtain ⟨hbound, -⟩ := (memAdmit_iff _ _ 1 Nat.one_pos).mp hlast
    omega

/-- Settles O30: an allowed store is MemWrite of its bytes. -/
theorem hostStoreWritesItsBytes : Obligations.HostStoreWritesItsBytes := by
  intro s rest a bs hwf hp hadmit
  have hmay : (s.withPending rest).hostMay a.toNat bs.length = true := State.hostMay_iff.mpr hadmit
  refine ⟨Memory.write s.mem a.toNat bs, ?_, Memory.get_write hwf (State.hostMay_bound hmay)⟩
  rw [step_cons hp, State.perform, State.hostStore, if_pos hmay]
  rfl

/-- Settles O31: an allowed load is MemRead of its range. -/
theorem hostLoadReturnsItsBytes : Obligations.HostLoadReturnsItsBytes := by
  intro s rest a n hp hadmit
  have hmay : (s.withPending rest).hostMay a.toNat n = true := State.hostMay_iff.mpr hadmit
  rw [step_cons hp, State.perform, State.hostLoad, if_pos hmay, ← Memory.read_eq_map]
  rfl

/-! ### The invariant (10_state.md R29, 20_memory.md R54) -/

theorem State.inv_iff {s : State} :
    s.inv = true ↔ Memory.wf s.mem = true ∧ s.status ∈ statusValues := by
  simp only [State.inv, State.statusLegal, Bool.and_eq_true, decide_eq_true_eq]

theorem statusError_mem_statusValues (e : ErrorCode) : statusError e ∈ statusValues := by
  cases e <;> decide

theorem State.effect_status_mem_statusValues (i : Instr) (s : State) :
    (s.effect i).status ∈ statusValues := by
  rw [State.effect_status]
  split_ifs <;> decide

/-- A command keeps the invariant: an error leaves memory, an output stays below 2^32. -/
theorem exec_keeps_inv {i : Instr} {s t : State} (hs : s.inv = true) (h : exec i s = .next t) :
    t.inv = true := by
  obtain ⟨hwf, -⟩ := State.inv_iff.mp hs
  rcases exec_raise_or_effect h with ⟨e, rfl⟩ | ⟨hl, ha, rfl⟩
  · exact State.inv_iff.mpr ⟨hwf, statusError_mem_statusValues e⟩
  · refine State.inv_iff.mpr ⟨?_, State.effect_status_mem_statusValues i s⟩
    rw [State.effect_mem]
    exact Memory.wf_write hwf _ _ (State.outBytes_bound hl ha)

/-- Every action keeps the invariant: only a command writes STATUS, and only a command or a host store
writes memory. -/
theorem State.perform_keeps_inv {s t : State} {a : Action} (hs : s.inv = true)
    (h : s.perform a = .next t) : t.inv = true := by
  obtain ⟨hwf, hstatus⟩ := State.inv_iff.mp hs
  rcases State.perform_cases h with ⟨_, v, -, -, hcmd⟩ | ⟨_, v, r, -, -, -, rfl⟩ |
    ⟨_, r, -, -, rfl⟩ | ⟨addr, bs, -, hmay, rfl⟩ | ⟨addr, n, -, -, rfl⟩ | ⟨-, rfl⟩
  · rcases State.writeCommand_cases hcmd with ⟨i, -, hexec⟩ | ⟨_, -, rfl⟩
    · exact exec_keeps_inv hs hexec
    · exact State.inv_iff.mpr ⟨hwf, statusError_mem_statusValues .illegalCmd⟩
  · exact State.inv_iff.mpr (by simp [hwf, hstatus])
  · exact hs
  · exact State.inv_iff.mpr ⟨Memory.wf_write hwf _ _ (State.hostMay_bound hmay), hstatus⟩
  · exact hs
  · exact State.inv_iff.mpr ⟨hwf, show 0#32 ∈ statusValues by decide⟩

/-- Settles O36: a step is idle or performs one action, and every action keeps the invariant. -/
theorem stepKeepsTheInvariant : Obligations.StepKeepsTheInvariant := by
  intro s t hs h
  rcases step_cases h with ⟨-, rfl⟩ | ⟨a, rest, -, ha⟩
  · exact hs
  · exact State.perform_keeps_inv (s := s.withPending rest) hs ha

/-- Settles O35: no byte is listed at reset, and STATUS is 0. -/
theorem resetMeetsTheInvariant : Obligations.ResetMeetsTheInvariant :=
  State.inv_iff.mpr ⟨rfl, by decide⟩

/-! ### The queue, the platform and reset (20_memory.md R63, 00_scope.md R9, 70_reset_and_hazards.md R196) -/

/-- No action changes the platform or the actions that follow it. -/
theorem State.perform_keeps_platform_and_pending {s t : State} {a : Action}
    (h : s.perform a = .next t) : t.platform = s.platform ∧ t.pending = s.pending := by
  rcases State.perform_cases h with ⟨_, v, -, -, hcmd⟩ | ⟨_, v, r, -, -, -, rfl⟩ |
    ⟨_, r, -, -, rfl⟩ | ⟨_, bs, -, -, rfl⟩ | ⟨_, n, -, -, rfl⟩ | ⟨-, rfl⟩
  · rcases State.writeCommand_cases hcmd with ⟨i, -, hexec⟩ | ⟨_, -, rfl⟩
    · obtain ⟨hplatform, hpending, -⟩ := exec_sameSurroundings hexec
      exact ⟨hplatform, hpending⟩
    · exact ⟨rfl, rfl⟩
  · simp
  all_goals exact ⟨rfl, rfl⟩

/-- Settles O37: an idle step changes nothing, and no action changes the platform. -/
theorem platformNeverChanges : Obligations.PlatformNeverChanges := by
  intro s t h
  rcases step_cases h with ⟨-, rfl⟩ | ⟨a, rest, -, ha⟩
  · rfl
  · exact (State.perform_keeps_platform_and_pending ha).1

/-- Settles O32: the action performed is taken off the queue first, and no action adds to it. -/
theorem stepTakesOneActionInOrder : Obligations.StepTakesOneActionInOrder := by
  have hrest : ∀ {s t : State} {a : Action} {rest : List Action},
      (s.withPending rest).perform a = .next t → t.pending = rest := fun ha =>
    (State.perform_keeps_platform_and_pending ha).2
  refine ⟨fun s hidle => ?_, fun s a rest hp => ⟨step_cons hp, fun t h => ?_⟩, fun s t h => ?_⟩
  · rw [step, State.nextAction, hidle]
  · exact hrest ((step_cons hp).symm.trans h)
  · rcases step_cases h with hidle | ⟨a, rest, hp, ha⟩
    · exact .inl hidle
    · exact .inr ⟨a, by rw [hp, hrest ha]⟩

/-- Settles O33: the reset event is performed, and every register reads 0 after it. -/
theorem resetEventClearsTheRegistersOnly : Obligations.ResetEventClearsTheRegistersOnly :=
  fun s rest hp => ⟨(s.withPending rest).resetEvent, step_cons hp, State.readReg_resetEvent _,
    rfl, rfl, rfl, rfl⟩

/-- Settles O34: the state after reset is the reset event's. -/
theorem resetRegistersAreZero : Obligations.ResetRegistersAreZero :=
  State.readReg_resetEvent State.reset

/-! ### Which register a step changes (70_reset_and_hazards.md R204, R206) -/

/-- What makes a step change a register: a CMD write, the host's own write of an operand register, or
the reset event. -/
theorem step_readReg_cases {s t : State} (h : step s = .next t) {r : Reg}
    (hne : t.readReg r ≠ s.readReg r) :
    (∃ v rest, s.pending = .regWrite s.platform.regBase .word v :: rest ∧
      (s.withPending rest).writeCommand v = .next t) ∨
    (∃ rest, s.pending = .regWrite (regAddr s.platform r) .word (t.readReg r) :: rest ∧
      operandReg r) ∨
    (∃ rest, s.pending = .reset :: rest ∧ t.readReg r = 0#32) := by
  rcases step_cases h with ⟨-, rfl⟩ | ⟨a, rest, hp, ha⟩
  · exact absurd rfl hne
  rcases State.perform_cases ha with ⟨_, v, rfl, hacc, hcmd⟩ | ⟨_, v, q, rfl, hacc, -, rfl⟩ |
    ⟨_, q, -, -, rfl⟩ | ⟨_, bs, -, -, rfl⟩ | ⟨_, n, -, -, rfl⟩ | ⟨rfl, rfl⟩
  · obtain ⟨-, rfl⟩ := State.accessReg_eq_ok_iff.mp hacc
    exact .inl ⟨v, rest, hp, hcmd⟩
  · obtain ⟨-, rfl⟩ := State.accessReg_eq_ok_iff.mp hacc
    have hq : r = q := by
      by_contra hrq
      exact hne (by rw [State.readReg_writeReg_other _ _ _ _ hrq, State.readReg_withPending])
    subst hq
    have hr : operandReg r := by
      by_contra hr
      rw [operandReg, ← not_or, ← not_or, not_not] at hr
      exact hne (by rw [State.writeReg_ignored _ _ _ hr, State.readReg_withPending])
    exact .inr (.inl ⟨rest, by rw [State.readReg_writeReg_same _ _ _ hr]; exact hp, hr⟩)
  · simp at hne
  · simp at hne
  · simp at hne
  · exact .inr (.inr ⟨rest, hp, State.readReg_resetEvent _ r⟩)

/-- A CMD write changes no operand register, whatever the word. -/
theorem State.writeCommand_readReg {s t : State} {v : Word} (h : s.writeCommand v = .next t) {r : Reg}
    (hstatus : r ≠ .status) (hresult : r ≠ .result) : t.readReg r = s.readReg r := by
  rcases State.writeCommand_cases h with ⟨i, -, hexec⟩ | ⟨_, -, rfl⟩
  · exact exec_readReg hexec hstatus (absurd · hresult)
  · exact State.readReg_raise s _ r hstatus

/-- Settles O21: a CMD write leaves every operand register, so the step was the register's own
write or the reset event. -/
theorem operandRegistersWrittenOnlyByTheHost : Obligations.OperandRegistersWrittenOnlyByTheHost := by
  intro s t off r hoff hr h hne
  obtain rfl := mem_registerTable_iff.mp hoff
  obtain ⟨-, hstatus, hresult⟩ := hr
  rcases step_readReg_cases h hne with ⟨v, rest, -, hcmd⟩ | ⟨rest, hp, -⟩ | hreset
  · refine absurd ?_ hne
    rw [State.writeCommand_readReg hcmd hstatus hresult, State.readReg_withPending]
  · exact .inl ⟨rest, hp⟩
  · exact .inr hreset

/-- Settles O20: an error and a cipher command leave RESULT, so a CMD write that changes it
completed a checksum command. -/
theorem resultWrittenOnlyByCompletedChecksum : Obligations.ResultWrittenOnlyByCompletedChecksum := by
  intro s t h hne
  rcases step_readReg_cases (r := .result) h hne with ⟨v, rest, hp, hcmd⟩ | ⟨rest, -, hr⟩ | hreset
  · rcases State.writeCommand_raise_or_effect hcmd with ⟨e, rfl⟩ | ⟨i, hi, rfl⟩
    · exact absurd rfl hne
    · have hchecksum : ¬(i = .enc ∨ i = .dec) := fun hcipher =>
        hne (State.effect_result_of_cipher hcipher _)
      have hv := decode_eq_ok_iff.mp hi
      refine .inl ⟨v, rest, hp, ?_, by rw [State.effect_status, if_neg (hchecksum ·.1)]⟩
      cases i with
      | crc32 => exact .inl hv
      | crcstamp => exact .inr hv
      | enc | dec => simp at hchecksum
  · obtain ⟨-, -, hresult⟩ := hr
    exact absurd rfl hresult
  · exact .inr hreset

/-! ### Which steps stop (10_state.md R36, R38; 60_exceptions.md R182) -/

/-- Settles O38: each of the three outcomes of a command is a next state. -/
theorem everyCommandCompletes : Obligations.EveryCommandCompletes := fun i s =>
  have ⟨t, ht, _⟩ := exec_status i s
  ⟨t, ht⟩

/-- A CMD write answers a next state, whatever the word. -/
theorem State.exists_writeCommand_eq_next (s : State) (v : Word) :
    ∃ t, s.writeCommand v = .next t := by
  unfold State.writeCommand
  split
  next i _ => exact everyCommandCompletes i s
  next => exact ⟨_, rfl⟩

/-- A write that reaches a register answers a next state. -/
theorem State.exists_hostWrite_eq_next {s : State} {addr : Nat} {w : Width} {r : Reg}
    (h : s.accessReg addr w = .ok r) (v : Word) : ∃ t, s.hostWrite addr w v = .next t := by
  simp only [State.hostWrite, h]
  split
  next hr => cases hr
  next => exact s.exists_writeCommand_eq_next v
  next => exact ⟨_, rfl⟩

/-- A read that reaches a register answers a next state. -/
theorem State.exists_hostRead_eq_next {s : State} {addr : Nat} {w : Width} {r : Reg}
    (h : s.accessReg addr w = .ok r) : ∃ t, s.hostRead addr w = .next t := by
  simp only [State.hostRead, h]
  exact ⟨_, rfl⟩

/-- A register access the table does not list is refused (10_state.md R36). -/
theorem State.perform_eq_refused {s : State} {a : Action} {addr : Nat} {w : Width} {e : Refusal}
    (ha : (∃ v, a = .regWrite addr w v) ∨ a = .regRead addr w) (he : s.accessReg addr w = .error e) :
    s.perform a = .refused e := by
  rcases ha with ⟨v, rfl⟩ | rfl
  · simp only [State.perform, State.hostWrite, he]
  · simp only [State.perform, State.hostRead, he]

/-- A host store or load with a byte that is not admitted faults (assumption 7). -/
theorem State.perform_eq_fault {s : State} {a : Action} {addr : Word} {n : Nat}
    (ha : (∃ bs, bs.length = n ∧ a = .store addr bs) ∨ a = .load addr n)
    (hmay : ¬s.hostMay addr.toNat n = true) : s.perform a = .fault .hostMemory := by
  rcases ha with ⟨bs, rfl, rfl⟩ | rfl
  · exact if_neg hmay
  · exact if_neg hmay

/-- An action answers a next state, unless it is a register access the table does not list or a host
access with a byte that is not admitted. -/
theorem State.perform_outcome (s : State) (a : Action) :
    (∃ t, s.perform a = .next t) ∨
    (∃ e addr w, s.perform a = .refused e ∧
      ((∃ v, a = .regWrite addr w v) ∨ a = .regRead addr w) ∧ s.accessReg addr w = .error e) ∨
    (∃ addr n, s.perform a = .fault .hostMemory ∧
      ((∃ bs, bs.length = n ∧ a = .store addr bs) ∨ a = .load addr n) ∧
      ¬s.hostMay addr.toNat n = true) := by
  cases a with
  | regWrite addr w v =>
    cases hacc : s.accessReg addr w with
    | error e =>
      exact .inr (.inl ⟨e, addr, w, State.perform_eq_refused (.inl ⟨v, rfl⟩) hacc, .inl ⟨v, rfl⟩,
        hacc⟩)
    | ok r => exact .inl (State.exists_hostWrite_eq_next hacc v)
  | regRead addr w =>
    cases hacc : s.accessReg addr w with
    | error e =>
      exact .inr (.inl ⟨e, addr, w, State.perform_eq_refused (.inr rfl) hacc, .inr rfl, hacc⟩)
    | ok r => exact .inl (State.exists_hostRead_eq_next hacc)
  | store addr bs =>
    by_cases hmay : s.hostMay addr.toNat bs.length = true
    · exact .inl ⟨_, if_pos hmay⟩
    · exact .inr (.inr ⟨addr, bs.length, State.perform_eq_fault (.inl ⟨bs, rfl, rfl⟩) hmay,
        .inl ⟨bs, rfl, rfl⟩, hmay⟩)
  | load addr n =>
    by_cases hmay : s.hostMay addr.toNat n = true
    · exact .inl ⟨_, if_pos hmay⟩
    · exact .inr (.inr ⟨addr, n, State.perform_eq_fault (.inr rfl) hmay, .inr rfl, hmay⟩)
  | reset => exact .inl ⟨_, rfl⟩

/-- A step that answers no next state stands at an action that answers none. -/
theorem exists_pending_of_step_ne_next {s : State} (h : ∀ t, step s ≠ .next t) :
    ∃ a rest, s.pending = a :: rest ∧ step s = (s.withPending rest).perform a := by
  cases hp : s.pending with
  | nil => exact absurd (by rw [step, State.nextAction, hp]) (h s)
  | cons a rest => exact ⟨a, rest, rfl, step_cons hp⟩

/-- Settles O25: of the three outcomes of an action only the register access is a refusal. -/
theorem stepRefusesExactlyUnlistedAccesses : Obligations.StepRefusesExactlyUnlistedAccesses := by
  intro s
  constructor
  · rintro ⟨e, he⟩
    obtain ⟨a, rest, hp, hstep⟩ := exists_pending_of_step_ne_next (s := s) (by simp [he])
    rw [he] at hstep
    rcases (s.withPending rest).perform_outcome a with ⟨t, ht⟩ | ⟨e', addr, w, -, ha, hacc⟩ |
      ⟨_, _, hfault, -⟩
    · cases hstep.trans ht
    · exact ⟨addr, w, rest, by simpa [hp] using ha, State.accessReg_isError_iff.mp ⟨e', hacc⟩⟩
    · cases hstep.trans hfault
  · rintro ⟨addr, w, rest, hp, hunlisted⟩
    obtain ⟨e, hacc⟩ := State.accessReg_isError_iff.mpr hunlisted
    rcases hp with ⟨v, hp⟩ | hp
    · exact ⟨e, (step_cons hp).trans (State.perform_eq_refused (.inl ⟨v, rfl⟩) hacc)⟩
    · exact ⟨e, (step_cons hp).trans (State.perform_eq_refused (.inr rfl) hacc)⟩

/-- A host access is not allowed when one of its bytes is not admitted. -/
theorem State.not_hostMay_iff {s : State} {a n : Nat} :
    ¬s.hostMay a n = true ↔ ∃ j, j < n ∧ memAdmit s.platform (a + j) 1 = false := by
  simp [State.hostMay_iff]

/-- Settles O26: of the three outcomes of an action only the host's store or load is a fault. -/
theorem stepFaultsExactlyOnUnadmittedBytes : Obligations.StepFaultsExactlyOnUnadmittedBytes := by
  intro s
  constructor
  · rintro ⟨f, hf⟩
    obtain ⟨a, rest, hp, hstep⟩ := exists_pending_of_step_ne_next (s := s) (by simp [hf])
    rw [hf] at hstep
    rcases (s.withPending rest).perform_outcome a with ⟨t, ht⟩ | ⟨_, _, _, hrefused, -⟩ |
      ⟨addr, n, -, ha, hmay⟩
    · cases hstep.trans ht
    · cases hstep.trans hrefused
    · obtain ⟨j, hj, hadmit⟩ := State.not_hostMay_iff.mp hmay
      exact ⟨addr, n, j, rest, hj, by simpa [hp] using ha, hadmit⟩
  · rintro ⟨addr, n, j, rest, hj, hp, hadmit⟩
    have hmay : ¬(s.withPending rest).hostMay addr.toNat n = true :=
      State.not_hostMay_iff.mpr ⟨j, hj, hadmit⟩
    rcases hp with ⟨bs, hbs, hp⟩ | hp
    · exact ⟨_, (step_cons hp).trans (State.perform_eq_fault (.inl ⟨bs, hbs, rfl⟩) hmay)⟩
    · exact ⟨_, (step_cons hp).trans (State.perform_eq_fault (.inr rfl) hmay)⟩

end Sys2Proof.Machine
end

section
/-! Admission and function laws (20_memory.md section 1, 40_crc.md section 1, 41_aes.md section 2, 42_cipher.md sections 3 and 7): what MemAdmit can be, the affine checksum, the S-box formula, the tweak on words, and both paths undone chunk by chunk. -/

namespace Sys2Proof.Machine

/-! ### MemAdmit (20_memory.md R50, R52) -/

/-- A range keeps clear of the registers where they share its address space (R50). -/
theorem meetsRegs_eq_false_iff {p : Platform} {a n : Nat} :
    meetsRegs p a n = false ↔
      (p.regsInBufferSpace = true → a + n ≤ p.regBase ∨ p.regBase + 64 ≤ a) := by
  cases hshared : p.regsInBufferSpace with
  | false => simp [meetsRegs, hshared]
  | true =>
    simp only [meetsRegs, hshared, Config.regBlockBytes, Bool.true_and, Bool.and_eq_false_iff,
      decide_eq_false_iff_not, forall_const]
    omega

/-- Every sub-range of an admitted range is admitted (R52). -/
theorem memAdmit_subrange {p : Platform} {a n a' n' : Nat} (h : memAdmit p a n = true) (hlo : a ≤ a')
    (hhi : a' + n' ≤ a + n) : memAdmit p a' n' = true := by
  rcases Nat.eq_zero_or_pos n' with rfl | hn'
  · exact memAdmit_zero p a'
  · obtain ⟨hlimit, hregs, r, hr, hbase, hend⟩ := (memAdmit_iff p a n (by omega)).mp h
    rw [meetsRegs_eq_false_iff] at hregs
    refine (memAdmit_iff p a' n' hn').mpr ⟨by omega, meetsRegs_eq_false_iff.mpr fun hshared => ?_,
      r, hr, by omega, by omega⟩
    have := hregs hshared
    omega

/-- Settles O28: each clause is one condition of an admitted range. -/
theorem memAdmitMeetsItsConstraint : Obligations.MemAdmitMeetsItsConstraint := by
  intro p a n
  refine ⟨memAdmit_zero p a, fun hn h => ?_, fun a' n' h hlo hhi => memAdmit_subrange h hlo hhi,
    fun hn h => ?_⟩
  · obtain ⟨hlimit, -⟩ := (memAdmit_iff p a n hn).mp h
    exact hlimit
  · obtain ⟨-, hregs, -⟩ := (memAdmit_iff p a n hn).mp h
    exact meetsRegs_eq_false_iff.mp hregs

/-- The ranges up to `limit` that a predicate admits, each as a region. -/
def regionsOf (P : Nat → Nat → Bool) (limit : Nat) : List Region :=
  (List.range (limit + 1)).flatMap fun a =>
    ((List.range (limit + 1)).filter (P a)).map (Region.mk a)

theorem mem_regionsOf {P : Nat → Nat → Bool} {limit : Nat} {r : Region} :
    r ∈ regionsOf P limit ↔ r.base ≤ limit ∧ r.size ≤ limit ∧ P r.base r.size = true := by
  obtain ⟨base, size⟩ := r
  simp [regionsOf, and_left_comm]

/-- Where a predicate is closed under sub-ranges and passes no limit, a range is inside one of its
regions exactly when it admits the range. -/
theorem exists_mem_regionsOf_iff {P : Nat → Nat → Bool} {limit : Nat}
    (hlimit : ∀ a n, 0 < n → P a n = true → a + n ≤ limit)
    (hsub : ∀ a n a' n', P a n = true → a ≤ a' → a' + n' ≤ a + n → P a' n' = true)
    {a n : Nat} (hn : 0 < n) :
    (∃ r ∈ regionsOf P limit, r.base ≤ a ∧ a + n ≤ r.base + r.size) ↔ P a n = true := by
  constructor
  · rintro ⟨r, hr, hbase, hend⟩
    obtain ⟨-, -, hP⟩ := mem_regionsOf.mp hr
    exact hsub _ _ _ _ hP hbase hend
  · intro hP
    have hbound := hlimit a n hn hP
    have ha : a ≤ limit := by omega
    have hn' : n ≤ limit := by omega
    exact ⟨⟨a, n⟩, mem_regionsOf.mpr ⟨ha, hn', hP⟩, le_rfl, le_rfl⟩

/-- Settles O29: the platform whose regions are the admitted ranges themselves, and whose registers lie
in a space of their own. -/
theorem everyAdmissionPredicateHasAPlatform : Obligations.EveryAdmissionPredicateHasAPlatform := by
  intro P hzero hlimit hsub
  generalize hregions : regionsOf P (2 ^ 32) = regions
  refine ⟨⟨0, false, regions, .computeAndFlag⟩, fun a n => ?_⟩
  rcases Nat.eq_zero_or_pos n with rfl | hn
  · rw [memAdmit_zero, hzero]
  · have hinside := exists_mem_regionsOf_iff hlimit hsub (a := a) hn
    rw [hregions] at hinside
    rw [Bool.eq_iff_iff, memAdmit_iff _ a n hn]
    exact ⟨fun ⟨_, _, hregion⟩ => hinside.mp hregion,
      fun hP => ⟨hlimit a n hn hP, rfl, hinside.mpr hP⟩⟩

/-! ### The checksum (40_crc.md R91, R101) -/

/-- Settles O39: the table is the list of the formula's values at 0 to 255. -/
theorem crcTableIsTheFormula : Obligations.CrcTableIsTheFormula :=
  ⟨by rw [crcTable_eq_map, List.length_map, List.length_range], crcEntry_eq_crcShifts⟩

/-- The checksum step is linear in the register and the byte together. -/
theorem crcStep_xor (c d : Word) (x y : Byte) :
    crcStep (c ^^^ d) (x ^^^ y) = crcStep c x ^^^ crcStep d y := by
  simp only [crcStep_eq_crcShifts, BitVec.setWidth_xor, ← crcShifts_xor]
  congr 1
  ac_rfl

/-- So is the register after sequences of equal length. -/
theorem crcFold_xor {a b : List Byte} (h : a.length = b.length) (c d : Word) :
    crcFold (c ^^^ d) (xorBytes a b) = crcFold c a ^^^ crcFold d b := by
  induction a generalizing b c d with
  | nil =>
    rw [List.eq_nil_of_length_eq_zero h.symm]
    rfl
  | cons x a ih =>
    cases b with
    | nil => cases h
    | cons y b =>
      have hstep := ih (Nat.succ.inj h) (crcStep c x) (crcStep d y)
      rwa [← crcStep_xor] at hstep

/-- Settles O42: the register is linear; of three initial values and three complements one is left. -/
theorem crc32IsAffine : Obligations.Crc32IsAffine := by
  intro a b c hab hbc
  have hinit : Config.crcInit ^^^ Config.crcInit ^^^ Config.crcInit = Config.crcInit := by decide
  have hxor : (xorBytes a b).length = c.length := by simp; omega
  rw [crc32, crc32, crc32, crc32, ← hinit, crcFold_xor hxor, crcFold_xor hab, hinit]
  generalize crcFold Config.crcInit a = x, crcFold Config.crcInit b = y,
    crcFold Config.crcInit c = z
  ext i hi
  simp

/-! ### The S-box (41_aes.md R114, R115) -/

/-- The affine map of `SBox` (R114). -/
def sboxAffine (g : Byte) : Byte :=
  g ^^^ g.rotateLeft 1 ^^^ g.rotateLeft 2 ^^^ g.rotateLeft 3 ^^^ g.rotateLeft 4 ^^^ 0x63#8

/-- The affine map of `SBox` undone. -/
def sboxAffineInv (b : Byte) : Byte := b.rotateLeft 1 ^^^ b.rotateLeft 3 ^^^ b.rotateLeft 6 ^^^ 0x05#8

theorem sboxFormula_eq_sboxAffine (a : Byte) : sboxFormula a = sboxAffine (ginv a) := rfl

theorem sboxAffine_sboxAffineInv (b : Byte) : sboxAffine (sboxAffineInv b) = b := by
  revert b
  decide +kernel

/-- Undoing the affine map on a table entry gives a byte whose product with the index is 1. -/
theorem gmul_sboxAffineInv_sbox {a : Byte} (ha : a ≠ 0#8) :
    gmul a (sboxAffineInv (sbox a)) = 1#8 := by
  revert a
  decide +kernel

/-- Settles O44: undoing the affine map on the table entry of a nonzero byte gives its inverse. -/
theorem sboxesFollowTheFormula : Obligations.SboxesFollowTheFormula := by
  refine fun a => ⟨?_, invSbox_sbox a, sbox_invSbox a⟩
  rw [sboxFormula_eq_sboxAffine]
  by_cases ha : a = 0#8
  · rw [ha, ginv_zero]
    decide
  · rw [← eq_ginv_of_gmul_eq_one (gmul_sboxAffineInv_sbox ha), sboxAffine_sboxAffineInv]

/-! ### The tweak on two words (42_cipher.md R145) -/

/-- `le64` undoes `unle64` on eight bytes (00_scope.md R12). -/
theorem le64_unle64 {bs : List Byte} (h : bs.length = 8) : le64 (unle64 bs) = bs := by
  match bs with
  | [b0, b1, b2, b3, b4, b5, b6, b7] =>
    simp only [unle64, le64, List.cons.injEq, and_true]
    refine ⟨?_, ?_, ?_, ?_, ?_, ?_, ?_, ?_⟩ <;> apply BitVec.eq_of_getLsbD_eq <;> intro i hi <;>
      simp only [BitVec.getLsbD_or, BitVec.getLsbD_setWidth, BitVec.getLsbD_shiftLeft,
        BitVec.getLsbD_extractLsb'] <;> interval_cases i <;> simp

/-- XOR of words is XOR of their bytes. -/
theorem le64_xor (v w : DWord) : le64 (v ^^^ w) = xorBytes (le64 v) (le64 w) := by
  simp [le64, xorBytes, BitVec.extractLsb'_xor]

/-- XOR of sequences in two parts of equal lengths. -/
theorem xorBytes_append {a b : List Byte} (h : a.length = b.length) (a' b' : List Byte) :
    xorBytes (a ++ a') (b ++ b') = xorBytes a b ++ xorBytes a' b' :=
  List.zipWith_append h

/-- The tweak applied twice is gone (R145). -/
@[simp] theorem applyTweak_applyTweak (off : Nat) (y : List Byte) :
    applyTweak off (applyTweak off y) = y := by
  refine List.ext_getElem? fun j => ?_
  rw [getElem?_applyTweak, getElem?_applyTweak, Option.map_map]
  simp [Function.comp_def]

/-- Settles O52: the mask is the offset's word twice, and XOR acts on the two words apart. -/
theorem tweakXorsTheTwoWords : Obligations.TweakXorsTheTwoWords := by
  intro off y hy
  refine ⟨?_, applyTweak_applyTweak off y⟩
  have h0 : (y.take 8).length = 8 := by simp; omega
  have h1 : ((y.drop 8).take 8).length = 8 := by simp; omega
  have h16 : y.take 16 = y.take 8 ++ (y.drop 8).take 8 := List.take_add (i := 8) (j := 8)
  rw [le64_xor, le64_xor, le64_unle64 h0, le64_unle64 h1, ← xorBytes_append (by simp [h0]), ← h16]
  rfl

/-! ### Both paths undone chunk by chunk (42_cipher.md R154) -/

/-- A sequence is its chunks in order. -/
theorem flatMap_chunk (b : List Byte) : (List.range (nChunks b.length)).flatMap (chunk b) = b := by
  have htake : ∀ n, (List.range n).flatMap (chunk b) = b.take (4096 * n) := fun n => by
    induction n with
    | zero => rfl
    | succ n ih =>
      rw [List.range_succ, List.flatMap_append, ih, List.flatMap_singleton, Nat.mul_succ,
        List.take_add]
      rfl
  rw [htake, List.take_of_length_le]
  simp only [nChunks, Config.chunkBytes]
  omega

/-- A chunk of whole blocks is whole blocks. -/
theorem length_chunk_mod {b : List Byte} (hb : b.length % 16 = 0) (m : Nat) :
    (chunk b m).length % 16 = 0 := by
  rw [length_chunk]
  omega

/-- The inverse R154 writes out: the tweak, then the other cipher `g`, on each chunk. -/
def untransform (g : List Byte → List Byte) (n : Nat) (b : List Byte) : List Byte :=
  (List.range n).flatMap fun m => g (applyTweak (4096 * m) (chunk b m))

/-- Undoing the tweak and the cipher on each chunk undoes a transform (R154). -/
theorem untransform_transform {f g : List Byte → List Byte}
    (hf : ∀ x, x.length % 16 = 0 → (f x).length = x.length)
    (hg : ∀ x, x.length % 16 = 0 → g (f x) = x) {b : List Byte} (hb : b.length % 16 = 0) :
    untransform g (nChunks b.length) (transform f b) = b := by
  conv_rhs => rw [← flatMap_chunk b]
  refine List.flatMap_congr fun m hm => ?_
  rw [chunk_transform hf hb (List.mem_range.mp hm), applyTweak_applyTweak,
    hg _ (length_chunk_mod hb m)]

/-- So a transform is injective on one length (R154). -/
theorem transform_injective {f g : List Byte → List Byte}
    (hf : ∀ x, x.length % 16 = 0 → (f x).length = x.length)
    (hg : ∀ x, x.length % 16 = 0 → g (f x) = x) {b b' : List Byte} (hb : b.length % 16 = 0)
    (hlen : b'.length = b.length) (h : transform f b' = transform f b) : b' = b := by
  calc b'
    _ = untransform g (nChunks b'.length) (transform f b') :=
      (untransform_transform hf hg (hlen ▸ hb)).symm
    _ = untransform g (nChunks b.length) (transform f b) := by rw [h, hlen]
    _ = b := untransform_transform hf hg hb

/-- Settles O58: the tweak and CBC are undone on each chunk. -/
theorem transformsAreInjective : Obligations.TransformsAreInjective := fun k iv _ _ hb =>
  ⟨untransform_transform (length_cbcEnc_of_mod k iv) (fun _ => cbcDec_cbcEnc k iv) hb,
    untransform_transform (length_cbcDec_of_mod k iv) (fun _ => cbcEnc_cbcDec k iv) hb,
    fun _ => transform_injective (length_cbcEnc_of_mod k iv) (fun _ => cbcDec_cbcEnc k iv) hb,
    fun _ => transform_injective (length_cbcDec_of_mod k iv) (fun _ => cbcEnc_cbcDec k iv) hb⟩

end Sys2Proof.Machine
end

section
/-! Host programs (10_state.md R25, R26; 30_encoding.md R80 to R82): the key and IV as bytes and as register writes, and what the lines of a pseudo-instruction do when they are performed. -/

namespace Sys2Proof.Machine

/-! ### The key and the IV as bytes (10_state.md R25, R26) -/

/-- Byte `r + 4c` of four words is byte `r` of word `c`. -/
theorem getD_four_le32 (w0 w1 w2 w3 : Word) {r c : Nat} (hr : r < 4) (hc : c < 4) :
    (le32 w0 ++ le32 w1 ++ le32 w2 ++ le32 w3).getD (r + 4 * c) 0#8 =
      (([w0, w1, w2, w3].getD c 0#32) >>> (8 * r)).setWidth 8 := by
  rw [← getD_le32 _ hr]
  interval_cases c <;> interval_cases r <;> rfl

/-- Byte `j` of the block of four words is bits `8(j mod 4)` and up of word `j div 4`. -/
theorem getD_toBytes_ofBytes_four_le32 (w0 w1 w2 w3 : Word) {j : Nat} (hj : j < 16) :
    (Block.ofBytes (le32 w0 ++ le32 w1 ++ le32 w2 ++ le32 w3)).toBytes.getD j 0#8 =
      (([w0, w1, w2, w3].getD (j / 4) 0#32) >>> (8 * (j % 4))).setWidth 8 := by
  rw [Block.toBytes_ofBytes (by simp), ← getD_four_le32 _ _ _ _ (j.mod_lt (by decide)) (by omega),
    Nat.mod_add_div]

/-- The four bytes of a column, packed and unpacked. -/
theorem le32_unle32_toBytes (w : Col) : le32 (unle32 w.toBytes) = w.toBytes :=
  le32_unle32 w.a0 w.a1 w.a2 w.a3

/-- The words of a block's columns make up the block. -/
theorem ofBytes_four_le32_unle32 (b : Block) :
    Block.ofBytes (le32 (unle32 b.c0.toBytes) ++ le32 (unle32 b.c1.toBytes) ++
      le32 (unle32 b.c2.toBytes) ++ le32 (unle32 b.c3.toBytes)) = b := by
  simp only [le32_unle32_toBytes]
  exact Block.ofBytes_toBytes b

/-! ### Writes of several registers (30_encoding.md R80) -/

/-- Host writes of registers, in order. -/
def State.writeRegs (s : State) (ws : List (Reg × Word)) : State :=
  ws.foldl (fun s w => s.writeReg w.1 w.2) s

/-- The lines of these writes. -/
def wrLines (ws : List (Reg × Word)) : List HostLine := ws.map fun w => .wr w.1 w.2

@[simp] theorem State.writeRegs_nil (s : State) : s.writeRegs [] = s := rfl

@[simp] theorem State.writeRegs_cons (s : State) (w : Reg × Word) (ws : List (Reg × Word)) :
    s.writeRegs (w :: ws) = (s.writeReg w.1 w.2).writeRegs ws := rfl

theorem State.writeReg_withPending (s : State) (q : List Action) (r : Reg) (v : Word) :
    (s.withPending q).writeReg r v = (s.writeReg r v).withPending q := by
  cases r <;> rfl

theorem State.writeRegs_withPending (s : State) (q : List Action) (ws : List (Reg × Word)) :
    (s.withPending q).writeRegs ws = (s.writeRegs ws).withPending q := by
  induction ws generalizing s with
  | nil => rfl
  | cons w ws ih => rw [State.writeRegs_cons, State.writeReg_withPending, ih, State.writeRegs_cons]

@[simp] theorem State.writeRegs_mem (s : State) (ws : List (Reg × Word)) :
    (s.writeRegs ws).mem = s.mem := by
  induction ws generalizing s <;> simp [*]

@[simp] theorem State.writeRegs_platform (s : State) (ws : List (Reg × Word)) :
    (s.writeRegs ws).platform = s.platform := by
  induction ws generalizing s <;> simp [*]

@[simp] theorem State.writeRegs_seen (s : State) (ws : List (Reg × Word)) :
    (s.writeRegs ws).seen = s.seen := by
  induction ws generalizing s <;> simp [*]

/-- A register none of the writes names keeps its value. -/
theorem State.readReg_writeRegs {r : Reg} {ws : List (Reg × Word)} (hr : ∀ w ∈ ws, r ≠ w.1)
    (s : State) : (s.writeRegs ws).readReg r = s.readReg r := by
  induction ws generalizing s with
  | nil => rfl
  | cons w ws ih =>
    rw [List.forall_mem_cons] at hr
    rw [State.writeRegs_cons, ih hr.2, State.readReg_writeReg_other _ _ _ _ hr.1]

/-- A queue that begins with writes of registers other than CMD performs them one by one. -/
theorem stepsTo_wrLines {ws : List (Reg × Word)} (hws : ∀ w ∈ ws, w.1 ≠ .cmd) {n : Nat}
    {s t : State} {rest : List Action}
    (hp : s.pending = encodeProgram s.platform (wrLines ws) ++ rest)
    (ht : stepsTo n ((s.writeRegs ws).withPending rest) t) : stepsTo (ws.length + n) s t := by
  induction ws generalizing s with
  | nil =>
    obtain rfl : s.pending = rest := hp
    rwa [List.length_nil, Nat.zero_add]
  | cons w ws ih =>
    rw [List.forall_mem_cons] at hws
    rw [List.length_cons, Nat.add_right_comm]
    refine ⟨_, step_wr hws.1 hp, ih hws.2 ?_ ?_⟩
    · rw [State.writeReg_pending, State.writeReg_platform]
      rfl
    · rwa [State.writeReg_withPending, State.writeRegs_withPending, State.withPending_withPending]

/-- A queue that begins with such writes leads to a state that differs from the old one in the written
registers and the queue only. -/
theorem stepsTo_writeRegs {ws : List (Reg × Word)} (hws : ∀ w ∈ ws, w.1 ≠ .cmd) {s t : State}
    {rest : List Action} (hp : s.pending = encodeProgram s.platform (wrLines ws) ++ rest)
    (ht : (s.writeRegs ws).withPending rest = t) :
    stepsTo ws.length s t ∧ (∀ r, (∀ w ∈ ws, r ≠ w.1) → t.readReg r = s.readReg r) ∧
      t.mem = s.mem ∧ t.platform = s.platform ∧ t.pending = rest ∧ t.seen = s.seen := by
  refine ⟨stepsTo_wrLines (n := 0) hws hp ht, ?_⟩
  subst ht
  refine ⟨fun r hr => ?_, State.writeRegs_mem s ws, State.writeRegs_platform s ws, rfl,
    State.writeRegs_seen s ws⟩
  rw [State.readReg_withPending, State.readReg_writeRegs hr]

/-- The register writes `key` expands to (R81). -/
def keyWrites (b : Block) : List (Reg × Word) :=
  [(.key0, unle32 b.c0.toBytes), (.key1, unle32 b.c1.toBytes), (.key2, unle32 b.c2.toBytes),
    (.key3, unle32 b.c3.toBytes)]

/-- The register writes `iv` expands to (R81). -/
def ivWrites (b : Block) : List (Reg × Word) :=
  [(.iv0, unle32 b.c0.toBytes), (.iv1, unle32 b.c1.toBytes), (.iv2, unle32 b.c2.toBytes),
    (.iv3, unle32 b.c3.toBytes)]

theorem expand_key (b : Block) : expand (.key b) = wrLines (keyWrites b) := rfl

theorem expand_iv (b : Block) : expand (.iv b) = wrLines (ivWrites b) := rfl

theorem State.keyBlock_writeRegs_keyWrites (s : State) (b : Block) :
    (s.writeRegs (keyWrites b)).keyBlock = b := ofBytes_four_le32_unle32 b

theorem State.ivBlock_writeRegs_ivWrites (s : State) (b : Block) :
    (s.writeRegs (ivWrites b)).ivBlock = b := ofBytes_four_le32_unle32 b

/-- Settles O59: byte `r + 4c` is byte `r` of word `c`; a word unpacked again gives back the column it
was packed from; the lines of `key` and `iv` are four register writes. -/
theorem keyAndIvPacking : Obligations.KeyAndIvPacking := by
  refine ⟨fun s j hj => ⟨getD_toBytes_ofBytes_four_le32 _ _ _ _ hj,
      getD_toBytes_ofBytes_four_le32 _ _ _ _ hj⟩,
    fun s b => ⟨s.keyBlock_writeRegs_keyWrites b, s.ivBlock_writeRegs_ivWrites b⟩,
    fun b => ⟨rfl, rfl⟩, fun s b rest hp => ?_, fun s b rest hp => ?_⟩
  · rw [expand_key] at hp
    obtain ⟨hsteps, hregs, hsame⟩ := stepsTo_writeRegs (by simp [keyWrites]) hp rfl
    exact ⟨_, hsteps, s.keyBlock_writeRegs_keyWrites b,
      fun r h0 h1 h2 h3 => hregs r (by simp [keyWrites, *]), hsame⟩
  · rw [expand_iv] at hp
    obtain ⟨hsteps, hregs, hsame⟩ := stepsTo_writeRegs (by simp [ivWrites]) hp rfl
    exact ⟨_, hsteps, s.ivBlock_writeRegs_ivWrites b,
      fun r h0 h1 h2 h3 => hregs r (by simp [ivWrites, *]), hsame⟩

/-! ### Lines and their transactions (30_encoding.md R82) -/

theorem regAtAddr_regAddr (p : Platform) (r : Reg) : regAtAddr p (regAddr p r) = some r := by
  cases r <;> simp [regAtAddr, regAddr, regOffset, regAtOffset]

/-- A bus transaction determines the line it came from. -/
theorem decodeLine_encodeLine (p : Platform) (l : HostLine) :
    decodeLine p (encodeLine p l) = some l := by
  cases l with
  | wr r v => simp only [encodeLine, decodeLine, regAtAddr_regAddr, Option.map_some]
  | rd r => simp only [encodeLine, decodeLine, regAtAddr_regAddr, Option.map_some]
  | st a bs => rfl
  | ld a n => rfl

/-- Writes of two different registers commute: each sets its own field, or none. -/
theorem State.writeReg_comm (s : State) {r q : Reg} (v w : Word) (h : r ≠ q) :
    (s.writeReg r v).writeReg q w = (s.writeReg q w).writeReg r v := by
  cases r <;> cases q <;> first | rfl | exact absurd rfl h

/-- Operand writes and then the write of a command's word run the command on those operands (R81). -/
theorem exists_stepsTo_command {ws : List (Reg × Word)} (hws : ∀ w ∈ ws, w.1 ≠ .cmd) (i : Instr)
    {s : State} {rest : List Action}
    (hp : s.pending = encodeProgram s.platform (wrLines ws) ++
      encodeLine s.platform (.wr .cmd (encode i)) :: rest) :
    ∃ t, exec i ((s.writeRegs ws).withPending rest) = .next t ∧ stepsTo (ws.length + 1) s t := by
  obtain ⟨t, ht⟩ := everyCommandCompletes i ((s.writeRegs ws).withPending rest)
  refine ⟨t, ht, stepsTo_wrLines hws hp ⟨t, ?_, rfl⟩⟩
  rw [step_wr_cmd (v := encode i) (rest := rest) (by simp), State.writeCommand_encode]
  exact ht

/-- Settles O60: each pseudo-instruction is its operand writes and the write of its command's word. -/
theorem hostLinesAreTheirTransactions : Obligations.HostLinesAreTheirTransactions := by
  refine ⟨fun p ls => ?_, fun p src dst len => ⟨rfl, rfl, rfl, rfl⟩, fun s src len rest => ?_,
    fun s src dst len rest => ?_, fun s r q v w h => s.writeReg_comm v w h⟩
  · rw [encodeProgram, List.map_map]
    exact List.map_congr_left fun l _ => decodeLine_encodeLine p l
  · have hws : ∀ w ∈ [(Reg.src, src), (Reg.len, len)], w.1 ≠ .cmd := by simp
    exact ⟨exists_stepsTo_command hws .crc32, exists_stepsTo_command hws .crcstamp⟩
  · have hws : ∀ w ∈ [(Reg.src, src), (Reg.dst, dst), (Reg.len, len)], w.1 ≠ .cmd := by simp
    exact ⟨exists_stepsTo_command hws .enc, exists_stepsTo_command hws .dec⟩

end Sys2Proof.Machine
end

section
/-! Multi-chunk round trips (42_cipher.md R153): what DEC after ENC, and ENC after DEC, give on a later chunk. -/

namespace Sys2Proof.Machine

/-! ### Bytes of blocks under CBC and the tweak -/

/-- The mask of R144 as a block. -/
def tweakBlock (off : Nat) : Block := Block.ofBytes (tweakMask off)

theorem toBytes_tweakBlock (off : Nat) : (tweakBlock off).toBytes = tweakMask off :=
  Block.toBytes_ofBytes (length_tweakMask off)

theorem bytesOf_cons (x : Block) (xs : List Block) : bytesOf (x :: xs) = x.toBytes ++ bytesOf xs :=
  List.flatMap_cons

/-- At least one block and nothing but whole blocks. -/
theorem exists_eq_bytesOf_cons {y : List Byte} (h16 : y.length % 16 = 0) (hlen : 16 ≤ y.length) :
    ∃ x xs, y = bytesOf (x :: xs) := by
  obtain ⟨n, hn⟩ : ∃ n, y.length = 16 * (n + 1) := ⟨y.length / 16 - 1, by omega⟩
  exact ⟨_, _, (bytesOf_blocksOf (n + 1) hn).symm⟩

theorem cbcEnc_bytesOf (k iv : Block) (xs : List Block) :
    cbcEnc k iv (bytesOf xs) = bytesOf (cbcEncBlocks k iv xs) := by
  rw [cbcEnc, blocksOf_length_bytesOf]

theorem cbcDec_bytesOf (k iv : Block) (ys : List Block) :
    cbcDec k iv (bytesOf ys) = bytesOf (cbcDecBlocks k iv ys) := by
  rw [cbcDec, blocksOf_length_bytesOf]

/-- The tweak XORs the mask into the first block. -/
theorem applyTweak_bytesOf_cons (off : Nat) (x : Block) (xs : List Block) :
    applyTweak off (bytesOf (x :: xs)) = bytesOf (x.xor (tweakBlock off) :: xs) := by
  rw [applyTweak, bytesOf_cons, bytesOf_cons, List.take_left' x.length_toBytes,
    List.drop_left' x.length_toBytes, Block.toBytes_xor, toBytes_tweakBlock]

/-- The mask in the preceding block comes out in the first block of `CbcDec`. -/
theorem bytesOf_cbcDecBlocks_xor (k prev : Block) (off : Nat) (ys : List Block) :
    bytesOf (cbcDecBlocks k (prev.xor (tweakBlock off)) ys) =
      applyTweak off (bytesOf (cbcDecBlocks k prev ys)) := by
  cases ys with
  | nil => rfl
  | cons y ys => rw [cbcDecBlocks, cbcDecBlocks, applyTweak_bytesOf_cons, Block.xor_assoc]

/-- The first 16 bytes of a tweaked sequence. -/
theorem take_applyTweak (off : Nat) (y : List Byte) :
    (applyTweak off y).take 16 = xorBytes (y.take 16) (tweakMask off) := by
  rcases Nat.lt_or_ge y.length 16 with hshort | hlong
  · rw [List.take_of_length_le (by simp; omega), applyTweak, List.drop_of_length_le hshort.le,
      List.append_nil]
  · exact List.take_left' (by simp; omega)

/-- The tweak copies every byte from byte 16 on (R145). -/
theorem drop_applyTweak (off : Nat) (y : List Byte) {n : Nat} (hn : 16 ≤ n) :
    (applyTweak off y).drop n = y.drop n := by
  refine List.ext_getElem? fun j => ?_
  have hpast : (tweakMask off).getD (n + j) 0x00#8 = 0x00#8 :=
    List.getD_eq_default _ _ (by simp; omega)
  rw [List.getElem?_drop, List.getElem?_drop, getElem?_applyTweak, hpast]
  simp

/-- The first block of a tweaked sequence. -/
theorem ofBytes_applyTweak (off : Nat) {y : List Byte} (hlen : 16 ≤ y.length) :
    Block.ofBytes (applyTweak off y) = (Block.ofBytes y).xor (tweakBlock off) := by
  have htake : (Block.ofBytes y).toBytes = y.take 16 := by
    rw [← Block.ofBytes_take, Block.toBytes_ofBytes (by simp; omega)]
  rw [← Block.ofBytes_take, take_applyTweak, ← htake, ← toBytes_tweakBlock, ← Block.toBytes_xor,
    Block.ofBytes_toBytes]

/-! ### One chunk, tweaked after each cipher -/

/-- DEC after ENC on one chunk: block 0 is `AesDec(K, C_0 xor T) xor IV xor T`, block 1 comes back
XORed with `T`, and every later block comes back (R153). -/
theorem tweaked_cbcDec_cbcEnc (k iv : Block) (off : Nat) {y : List Byte} (h16 : y.length % 16 = 0)
    (hlen : 16 ≤ y.length) :
    applyTweak off (cbcDec k iv (applyTweak off (cbcEnc k iv y))) =
      (((aesDec k ((aesEnc k ((Block.ofBytes y).xor iv)).xor (tweakBlock off))).xor iv).xor
        (tweakBlock off)).toBytes ++ applyTweak off (y.drop 16) := by
  obtain ⟨x, xs, rfl⟩ := exists_eq_bytesOf_cons h16 hlen
  have hfirst : Block.ofBytes (bytesOf (x :: xs)) = x := Block.ofBytes_toBytes_append x (bytesOf xs)
  have hrest : (bytesOf (x :: xs)).drop 16 = bytesOf xs := List.drop_left' x.length_toBytes
  rw [hfirst, hrest, cbcEnc_bytesOf, cbcEncBlocks, applyTweak_bytesOf_cons, cbcDec_bytesOf,
    cbcDecBlocks, applyTweak_bytesOf_cons, bytesOf_cons, bytesOf_cbcDecBlocks_xor,
    cbcDecBlocks_cbcEncBlocks]

section EncAfterDec

variable (k iv : Block) (off : Nat) {y : List Byte} (h16 : y.length % 16 = 0)

include h16

theorem length_cbcEnc_tweaked_cbcDec :
    (cbcEnc k iv (applyTweak off (cbcDec k iv y))).length = y.length := by
  have hdec := length_cbcDec_of_mod k iv y h16
  rw [length_cbcEnc_of_mod _ _ _ (by rwa [length_applyTweak, hdec]), length_applyTweak, hdec]

/-- Block 0 of `CbcEnc` after the tweaked `CbcDec`: the IV cancels (R153). -/
theorem ofBytes_cbcEnc_tweaked_cbcDec (hlen : 16 ≤ y.length) :
    Block.ofBytes (cbcEnc k iv (applyTweak off (cbcDec k iv y))) =
      aesEnc k ((aesDec k (Block.ofBytes y)).xor (tweakBlock off)) := by
  have hdec : Block.ofBytes (cbcDec k iv y) = (aesDec k (Block.ofBytes y)).xor iv :=
    ofBytes_drop_cbcDec k iv y (i := 0) (by omega)
  have hlenDec := length_cbcDec_of_mod k iv y h16
  have henc := ofBytes_drop_cbcEnc k iv (applyTweak off (cbcDec k iv y)) (i := 0)
    (by rw [length_applyTweak, hlenDec]; omega)
  simp only [Nat.mul_zero, List.drop_zero, if_true] at henc
  rw [henc, ofBytes_applyTweak off (by rwa [hlenDec]), hdec, Block.xor_assoc _ iv,
    Block.xor_comm iv, ← Block.xor_assoc, Block.xor_xor_cancel]

/-- A later block of `CbcEnc` after the tweaked `CbcDec` (R153). -/
theorem ofBytes_drop_cbcEnc_tweaked_cbcDec {i : Nat} (hi : 1 ≤ i) (hlen : 16 * i < y.length) :
    Block.ofBytes ((cbcEnc k iv (applyTweak off (cbcDec k iv y))).drop (16 * i)) =
      aesEnc k (((aesDec k (Block.ofBytes (y.drop (16 * i)))).xor
        (Block.ofBytes (y.drop (16 * (i - 1))))).xor
          (Block.ofBytes ((cbcEnc k iv (applyTweak off (cbcDec k iv y))).drop (16 * (i - 1))))) := by
  have hne : i ≠ 0 := by omega
  have hlenDec := length_cbcDec_of_mod k iv y h16
  rw [ofBytes_drop_cbcEnc _ _ _ (by rw [length_applyTweak, hlenDec]; omega), if_neg hne,
    drop_applyTweak off _ (by omega), ofBytes_drop_cbcDec _ _ _ (by omega), if_neg hne]

end EncAfterDec

/-! ### The two orders, chunk by chunk -/

section Orders

variable (k iv : Block) {b : List Byte} (hb : b.length % 16 = 0) {m : Nat}
  (hm : m < nChunks b.length)

include hb hm

/-- Chunk `m` of DEC after ENC. -/
theorem chunk_transformDec_transformEnc :
    chunk (transformDec k iv (transformEnc k iv b)) m =
      applyTweak (4096 * m) (cbcDec k iv (applyTweak (4096 * m) (cbcEnc k iv (chunk b m)))) := by
  have hlen := length_transformEnc k iv hb
  rw [chunk_transformDec k iv (by rwa [hlen]) (by rwa [hlen]), chunk_transformEnc k iv hb hm]

/-- Chunk `m` of ENC after DEC. -/
theorem chunk_transformEnc_transformDec :
    chunk (transformEnc k iv (transformDec k iv b)) m =
      applyTweak (4096 * m) (cbcEnc k iv (applyTweak (4096 * m) (cbcDec k iv (chunk b m)))) := by
  have hlen := length_transformDec k iv hb
  rw [chunk_transformEnc k iv (by rwa [hlen]) (by rwa [hlen]), chunk_transformDec k iv hb hm]

end Orders

/-- In chunk 0 the mask is 0, and each path undoes the other. -/
theorem chunk_zero_transformDec_transformEnc (k iv : Block) {b : List Byte} (hb : b.length % 16 = 0)
    (hpos : 0 < nChunks b.length) :
    chunk (transformDec k iv (transformEnc k iv b)) 0 = chunk b 0 := by
  rw [chunk_transformDec_transformEnc k iv hb hpos, Nat.mul_zero, applyTweak_zero, applyTweak_zero,
    cbcDec_cbcEnc k iv (length_chunk_mod hb 0)]

theorem chunk_zero_transformEnc_transformDec (k iv : Block) {b : List Byte} (hb : b.length % 16 = 0)
    (hpos : 0 < nChunks b.length) :
    chunk (transformEnc k iv (transformDec k iv b)) 0 = chunk b 0 := by
  rw [chunk_transformEnc_transformDec k iv hb hpos, Nat.mul_zero, applyTweak_zero, applyTweak_zero,
    cbcEnc_cbcDec k iv (length_chunk_mod hb 0)]

/-- On a later chunk the tweak changes what it is applied to (R151). -/
theorem applyTweak_later_chunk_ne {m : Nat} {y : List Byte} (hm : 1 ≤ m) (h31 : 4096 * m < 2 ^ 31)
    (hlen : 16 ≤ y.length) : applyTweak (4096 * m) y ≠ y := by
  obtain ⟨-, hchange⟩ := tweakChangesEveryLaterChunk
  obtain ⟨-, j, -, hj, -⟩ := hchange m y hm h31 hlen
  exact fun h => hj (by rw [h])

theorem lt_nChunks {n m : Nat} (h : 4096 * m < n) : m < nChunks n := by
  simp only [nChunks, Config.chunkBytes]
  omega

/-- XOR moves a block to the other side of an equation. -/
theorem Block.xor_eq_iff {x y z : Block} : x.xor y = z ↔ x.xor z = y := by
  constructor <;>
  · rintro rfl
    rw [← Block.xor_comm _ x, Block.xor_comm x, Block.xor_xor_cancel]

/-- The 16 bytes of a block determine it. -/
theorem Block.toBytes_eq_take_iff {x : Block} {y : List Byte} (hlen : 16 ≤ y.length) :
    x.toBytes = y.take 16 ↔ x = Block.ofBytes y := by
  rw [← Block.ofBytes_take]
  constructor
  · intro h
    rw [← h, Block.ofBytes_toBytes]
  · rintro rfl
    exact Block.toBytes_ofBytes (by simp; omega)

/-- Settles O57: on a later chunk, the mask DEC finds in block 0 of the ciphertext garbles block 0 and
comes out in block 1; the mask ENC finds in block 0 of DEC's output is chained through every block. -/
theorem multiChunkRoundTrip : Obligations.MultiChunkRoundTrip := by
  intro k iv b m hmax hb hm hlen r t c0
  have hmn := lt_nChunks hlen
  have hpos : 0 < nChunks b.length := by omega
  have h16 := length_chunk_mod hb m
  have hone : 16 ≤ (chunk b m).length := by rw [length_chunk] at h16 ⊢; omega
  have hr : chunk r m = (((aesDec k (c0.xor t)).xor iv).xor t).toBytes ++
      applyTweak (4096 * m) ((chunk b m).drop 16) :=
    (chunk_transformDec_transformEnc k iv hb hmn).trans (tweaked_cbcDec_cbcEnc k iv _ h16 hone)
  have htake : (chunk r m).take 16 = (((aesDec k (c0.xor t)).xor iv).xor t).toBytes := by
    rw [hr, List.take_left' (Block.length_toBytes _)]
  have hdrop : (chunk r m).drop 16 = applyTweak (4096 * m) ((chunk b m).drop 16) := by
    rw [hr, List.drop_left' (Block.length_toBytes _)]
  refine ⟨?_, htake, ?_, ?_, ?_, fun htwo hrb => ?_, ?_⟩
  · exact chunk_zero_transformDec_transformEnc k iv hb hpos
  · rw [hdrop, take_applyTweak]
  · rw [← List.drop_drop (i := 16) (j := 16), hdrop, drop_applyTweak _ _ le_rfl, List.drop_drop]
  · have hc0 : aesDec k c0 = (Block.ofBytes (chunk b m)).xor iv := aesDec_aesEnc ..
    rw [htake, Block.toBytes_eq_take_iff hone, hc0, Block.xor_eq_iff, Block.xor_assoc,
      Block.xor_comm iv]
  · have hrest : 16 ≤ ((chunk b m).drop 16).length := by rw [List.length_drop, length_chunk]; omega
    rw [hrb] at hdrop
    exact applyTweak_later_chunk_ne hm (by omega) hrest hdrop.symm
  intro y q d0
  have hq : chunk q m = applyTweak (4096 * m)
      (cbcEnc k iv (applyTweak (4096 * m) (cbcDec k iv y))) :=
    chunk_transformEnc_transformDec k iv hb hmn
  have hqlen := length_cbcEnc_tweaked_cbcDec k iv (4096 * m) h16
  have hd0 := ofBytes_cbcEnc_tweaked_cbcDec k iv (4096 * m) h16 hone
  refine ⟨?_, ?_, ?_, fun i hi hiy => ?_⟩
  · exact chunk_zero_transformEnc_transformDec k iv hb hpos
  · rw [hq, length_applyTweak, hqlen]
  · rw [hq, ofBytes_applyTweak _ (hqlen ▸ hone), hd0]
    rfl
  · rw [hq, drop_applyTweak _ _ (by omega),
      ofBytes_drop_cbcEnc_tweaked_cbcDec k iv _ h16 hi hiy]
    split_ifs with h1
    · rw [h1, Nat.sub_self, Nat.mul_zero, List.drop_zero, List.drop_zero, hd0]
      rfl
    · rw [drop_applyTweak _ _ (by omega)]

end Sys2Proof.Machine
end
